-- ==== Sys2Proof/Word.lean ====
section
/-! DEFINITION. The word types of ZC-CORE: 32-bit registers, addresses and lengths (R6, R21), bytes (R8), and
the binary64 results of ENTROPY as 64 bits (R171). -/

namespace Sys2Proof

/-- A register, an address or a length: 32 bits, unsigned (R6, R21). -/
abbrev Word := BitVec 32

/-- One byte of a buffer: an unsigned value from 0 to 255 (R8). -/
abbrev Byte := BitVec 8

/-- An IEEE 754 binary64 value, as its 64 bits (R171). -/
abbrev Binary64 := BitVec 64

/-- The histogram file: 256 counters of 32 bits, `H[0]` to `H[255]` (R6, R44). -/
abbrev Histogram := Vector Word 256

end Sys2Proof
end

