-- ==== Sys2Proof/Config.lean ====
section
/-! DEFINITION. What an implementation or its platform fixes (R6, R7), and the free values: constants without a
body, so that nothing can be proved of the value they give. -/

namespace Sys2Proof

/-- The register window is 0x40 bytes (R6, R20). -/
def Config.windowBytes : Nat := 0x40

/-- The memory address space has 2^32 bytes (R6, R50). -/
def Config.memoryBytes : Nat := 2 ^ 32

/-- FREE VALUE (log 5). What a read of RESULT0, RESULT1 or ERR_ADDR returns while BUSY = 1: "an unspecified
32-bit value, drawn independently for each read" (R127). Applied to the count of draws made so far. -/
opaque Config.unspecifiedWord : Nat → Word

/-- FREE VALUE (log 5). The histogram counters after a reset: "unspecified values" (R220). Applied to the count of draws
made so far. -/
opaque Config.unspecifiedHistogram : Nat → Histogram

/-- FREE VALUE (log 7). The bits an implementation's ENTROPY_FN would give for a histogram and a length, before
Machine/Entropy.lean holds them to properties E2 to E6 (R174). -/
opaque Config.entropyBits : Histogram → Word → Binary64

/-- FREE VALUE (log 7). For a number k of equally frequent values, k no power of two: the largest result an
implementation's ENTROPY_FN gives for k such values, before Machine/Entropy.lean puts it in order (R174, E6). -/
opaque Config.entropyCeiling : Nat → Binary64

/-- FREE VALUE (log 19). What a host variable holds before anything was read into it, by the variable's number. -/
opaque Config.unreadVariable : Nat → Word

/-- A piece of the platform's address map: `size` bytes from `base`. -/
structure Region where
  base : Nat
  size : Nat
deriving DecidableEq, Repr

/-- The address lies in the region. -/
def Region.contains (r : Region) (a : Nat) : Bool :=
  decide (r.base ≤ a) && decide (a < r.base + r.size)

/-- The platform's OPEN parameters that a run can depend on (R7). They are held in State as plain data, so that every
statement about all states is a statement about all platforms (log 4). -/
structure Platform where
  /-- `ZC_BASE`: the base address of the register window, a multiple of 0x40 (R7, R20). -/
  zcBase : Word
  /-- The addresses with `MEM_READABLE = false`: a read gets a bus error (R7, R50). -/
  unreadable : List Region
  /-- The addresses with `MEM_IDEMPOTENT = false`, beside the register window itself: a read has a side effect
  (R7, R57). -/
  sideEffecting : List Region
deriving DecidableEq, Repr

end Sys2Proof
end

