-- ==== Sys2Proof/Syntax.lean ====
section
/-! DEFINITION. The syntax: the sixteen slots of the register window, the four commands, the instructions (one
constructor per row of spec/opcode_table.json), their encoded forms, and a host access as the bus carries it. -/

namespace Sys2Proof

/-- The sixteen word slots of the register window (R20, R85). -/
inductive Register where
  | id
  | ctrl
  | status
  | cmd
  | aAddr
  | aLen
  | bAddr
  | bLen
  | result0
  | result1
  | errAddr
  | rsvd2C
  | rsvd30
  | rsvd34
  | rsvd38
  | rsvd3C
deriving DecidableEq, Repr

/-- The four commands of the ZC command set, revision 7 (R2, R83). -/
inductive Command where
  | crc32
  | cmp
  | search
  | entropy
deriving DecidableEq, Repr

/-- The instructions: the four command words (format CMD) and the 32 register transactions (format BUS) of
R80. A command word is what the core engine runs after an accepted request (R109); a transaction is what the
window takes from a host. A write carries its 32-bit data word (R82). -/
inductive Instr where
  /-- CRC32: the checksum of operand A (R140). -/
  | crc32
  /-- CMP: the lexicographic comparison of two buffers of length A_LEN (R150). -/
  | cmp
  /-- SEARCH: the leftmost occurrence of operand B in operand A (R160). -/
  | search
  /-- ENTROPY: the Shannon entropy of operand A (R170). -/
  | entropy
  /-- RD ID, TXN 0x00 (R120). -/
  | rdId
  /-- WR ID, TXN 0x40 (R120). -/
  | wrId (data : Word)
  /-- RD CTRL, TXN 0x04 (R121). -/
  | rdCtrl
  /-- WR CTRL, TXN 0x44 (R121). -/
  | wrCtrl (data : Word)
  /-- RD STATUS, TXN 0x08 (R122). -/
  | rdStatus
  /-- WR STATUS, TXN 0x48 (R123). -/
  | wrStatus (data : Word)
  /-- RD CMD, TXN 0x0C (R124). -/
  | rdCmd
  /-- WR CMD, TXN 0x4C (R100). -/
  | wrCmd (data : Word)
  /-- RD A_ADDR, TXN 0x10 (R125). -/
  | rdAAddr
  /-- WR A_ADDR, TXN 0x50 (R126). -/
  | wrAAddr (data : Word)
  /-- RD A_LEN, TXN 0x14 (R125). -/
  | rdALen
  /-- WR A_LEN, TXN 0x54 (R126). -/
  | wrALen (data : Word)
  /-- RD B_ADDR, TXN 0x18 (R125). -/
  | rdBAddr
  /-- WR B_ADDR, TXN 0x58 (R126). -/
  | wrBAddr (data : Word)
  /-- RD B_LEN, TXN 0x1C (R125). -/
  | rdBLen
  /-- WR B_LEN, TXN 0x5C (R126). -/
  | wrBLen (data : Word)
  /-- RD RESULT0, TXN 0x20 (R127). -/
  | rdResult0
  /-- WR RESULT0, TXN 0x60 (R128). -/
  | wrResult0 (data : Word)
  /-- RD RESULT1, TXN 0x24 (R127). -/
  | rdResult1
  /-- WR RESULT1, TXN 0x64 (R128). -/
  | wrResult1 (data : Word)
  /-- RD ERR_ADDR, TXN 0x28 (R127). -/
  | rdErrAddr
  /-- WR ERR_ADDR, TXN 0x68 (R128). -/
  | wrErrAddr (data : Word)
  /-- RD RSVD_2C, TXN 0x2C (R129). -/
  | rdRsvd2C
  /-- WR RSVD_2C, TXN 0x6C (R129). -/
  | wrRsvd2C (data : Word)
  /-- RD RSVD_30, TXN 0x30 (R129). -/
  | rdRsvd30
  /-- WR RSVD_30, TXN 0x70 (R129). -/
  | wrRsvd30 (data : Word)
  /-- RD RSVD_34, TXN 0x34 (R129). -/
  | rdRsvd34
  /-- WR RSVD_34, TXN 0x74 (R129). -/
  | wrRsvd34 (data : Word)
  /-- RD RSVD_38, TXN 0x38 (R129). -/
  | rdRsvd38
  /-- WR RSVD_38, TXN 0x78 (R129). -/
  | wrRsvd38 (data : Word)
  /-- RD RSVD_3C, TXN 0x3C (R129). -/
  | rdRsvd3C
  /-- WR RSVD_3C, TXN 0x7C (R129). -/
  | wrRsvd3C (data : Word)
deriving DecidableEq, Repr

/-- The two encoded forms of R80. -/
inductive Encoded where
  /-- A command word: 32 bits (R81). -/
  | cmd (word : Word)
  /-- A register transaction: its 7-bit TXN code and the 32-bit data word that goes with a write (R82). The data lines of a
  read carry nothing. -/
  | bus (txn : BitVec 7) (data : Word)
deriving DecidableEq, Repr

/-- A host access to the window as the bus presents it: how many bits wide it is, whether it writes, the byte offset in the
window, and the data lines (R46, R82). Its width and offset are not yet checked (R130). -/
structure Access where
  width : Nat
  write : Bool
  offset : BitVec 6
  data : Word
deriving DecidableEq, Repr

end Sys2Proof
end

