-- ==== Sys2Proof/WellFormed.lean ====
section
/-! DEFINITION. Which host accesses, encoded forms and platforms are well formed. An `Instr` has no ill-formed term: its one
kind of operand, a data word, may be any 32 bits (R89). -/

namespace Sys2Proof

/-- A host access the window defines: exactly 32 bits wide, at an offset that is a multiple of 4 (R21, R82). -/
def Access.wf (a : Access) : Bool :=
  decide (a.width = 32) && decide (a.offset.extractLsb' 0 2 = 0#2)

/-- A command word with no reserved bit set and one of the four opcodes (R81, R84). -/
def wfCommandWord (w : Word) : Bool :=
  decide (w.extractLsb' 4 28 = 0#28) && decide (1 ≤ w.toNat ∧ w.toNat ≤ 4)

/-- An encoded form that stands for an instruction: a legal command word (R84), or a TXN code whose OFFSET[1:0] is
00 (R82, R87). -/
def Encoded.wf : Encoded → Bool
  | .cmd w => wfCommandWord w
  | .bus txn _ => decide (txn.extractLsb' 0 2 = 0#2)

/-- Every term of `Instr` is well formed: any data word is legal for every write (R80, R89). -/
def Instr.wf (_ : Instr) : Bool := true

/-- A region inside the 32-bit memory address space (R50). -/
def Region.wf (r : Region) : Bool := decide (r.base + r.size ≤ Config.memoryBytes)

/-- `ZC_BASE` is a multiple of 0x40, and the map's regions lie in the address space (R7). -/
def Platform.wf (p : Platform) : Bool :=
  decide (p.zcBase.toNat % Config.windowBytes = 0) && p.unreadable.all Region.wf && p.sideEffecting.all Region.wf

end Sys2Proof
end

