-- ==== Sys2Proof/Decode.lean ====
section
/-! DEFINITION. The decoder (R80 to R87), total, and the encoder beside it. -/

namespace Sys2Proof

/-- The byte offset of a slot in the window (R20). -/
def Register.offset : Register → BitVec 6
  | .id => 0x00#6
  | .ctrl => 0x04#6
  | .status => 0x08#6
  | .cmd => 0x0C#6
  | .aAddr => 0x10#6
  | .aLen => 0x14#6
  | .bAddr => 0x18#6
  | .bLen => 0x1C#6
  | .result0 => 0x20#6
  | .result1 => 0x24#6
  | .errAddr => 0x28#6
  | .rsvd2C => 0x2C#6
  | .rsvd30 => 0x30#6
  | .rsvd34 => 0x34#6
  | .rsvd38 => 0x38#6
  | .rsvd3C => 0x3C#6

/-- The value of the OP field of a command's word (R83). -/
def Command.op : Command → BitVec 4
  | .crc32 => 1#4
  | .cmp => 2#4
  | .search => 3#4
  | .entropy => 4#4

/-- The instruction a command's word stands for. -/
def Command.toInstr : Command → Instr
  | .crc32 => .crc32
  | .cmp => .cmp
  | .search => .search
  | .entropy => .entropy

/-- Why a form is no instruction. -/
inductive DecodeError where
  /-- A command word other than the four of R84: the window reports it as ILLEGAL_OP (R86). -/
  | illegalCommand
  /-- A transaction with OFFSET[1:0] other than 00 (R82). -/
  | misaligned
  /-- A transaction that is not 32 bits wide (R82). -/
  | notAWord
deriving DecidableEq, Repr

/-- The command an OP value names, if any (R83). -/
def Command.ofOp (op : BitVec 4) : Option Command :=
  match op.toNat with
  | 1 => some .crc32
  | 2 => some .cmp
  | 3 => some .search
  | 4 => some .entropy
  | _ => none

/-- The command a CMD word requests: bits 31:4 must be 0 and bits 3:0 an opcode (R81, R84, R105). -/
def Command.ofWord (w : Word) : Option Command :=
  if w.extractLsb' 4 28 = 0#28 then Command.ofOp (w.extractLsb' 0 4) else none

/-- The command decoder: all 32 bits are matched (R84, R86). -/
def decodeCommand (w : Word) : Except DecodeError Instr :=
  match Command.ofWord w with
  | some c => .ok c.toInstr
  | none => .error .illegalCommand

/-- The transaction map, code by code (R85). -/
def decodeTxn (txn : BitVec 7) (data : Word) : Except DecodeError Instr :=
  match txn.toNat with
  | 0x00 => .ok .rdId
  | 0x04 => .ok .rdCtrl
  | 0x08 => .ok .rdStatus
  | 0x0C => .ok .rdCmd
  | 0x10 => .ok .rdAAddr
  | 0x14 => .ok .rdALen
  | 0x18 => .ok .rdBAddr
  | 0x1C => .ok .rdBLen
  | 0x20 => .ok .rdResult0
  | 0x24 => .ok .rdResult1
  | 0x28 => .ok .rdErrAddr
  | 0x2C => .ok .rdRsvd2C
  | 0x30 => .ok .rdRsvd30
  | 0x34 => .ok .rdRsvd34
  | 0x38 => .ok .rdRsvd38
  | 0x3C => .ok .rdRsvd3C
  | 0x40 => .ok (.wrId data)
  | 0x44 => .ok (.wrCtrl data)
  | 0x48 => .ok (.wrStatus data)
  | 0x4C => .ok (.wrCmd data)
  | 0x50 => .ok (.wrAAddr data)
  | 0x54 => .ok (.wrALen data)
  | 0x58 => .ok (.wrBAddr data)
  | 0x5C => .ok (.wrBLen data)
  | 0x60 => .ok (.wrResult0 data)
  | 0x64 => .ok (.wrResult1 data)
  | 0x68 => .ok (.wrErrAddr data)
  | 0x6C => .ok (.wrRsvd2C data)
  | 0x70 => .ok (.wrRsvd30 data)
  | 0x74 => .ok (.wrRsvd34 data)
  | 0x78 => .ok (.wrRsvd38 data)
  | 0x7C => .ok (.wrRsvd3C data)
  | _ => .error .misaligned

/-- The decoder of both formats (R80). -/
def decode : Encoded → Except DecodeError Instr
  | .cmd w => decodeCommand w
  | .bus txn data => decodeTxn txn data

/-- `TXN = W << 6 | OFFSET` (R82). -/
def txnCode (write : Bool) (offset : BitVec 6) : BitVec 7 :=
  BitVec.ofBool write ++ offset

/-- The window's decoder: a host access of exactly 32 bits is a transaction (R82, R130). -/
def decodeAccess (a : Access) : Except DecodeError Instr :=
  if a.width = 32 then decode (.bus (txnCode a.write a.offset) a.data) else .error .notAWord

/-- The read of a slot, encoded: W = 0, and nothing on the data lines (R82). -/
def encodeRead (r : Register) : Encoded := .bus (txnCode false r.offset) 0#32

/-- The write of a slot, encoded: W = 1, with its data word (R82). -/
def encodeWrite (r : Register) (data : Word) : Encoded := .bus (txnCode true r.offset) data

/-- A command's word: OP in bits 3:0, zero above (R81, R83). -/
def encodeCommand (c : Command) : Encoded := .cmd (0#28 ++ c.op)

/-- The encoder, from the formats of R81 and R82, the opcodes of R83 and the offsets of R20. -/
def encode : Instr → Encoded
  | .crc32 => encodeCommand .crc32
  | .cmp => encodeCommand .cmp
  | .search => encodeCommand .search
  | .entropy => encodeCommand .entropy
  | .rdId => encodeRead .id
  | .wrId data => encodeWrite .id data
  | .rdCtrl => encodeRead .ctrl
  | .wrCtrl data => encodeWrite .ctrl data
  | .rdStatus => encodeRead .status
  | .wrStatus data => encodeWrite .status data
  | .rdCmd => encodeRead .cmd
  | .wrCmd data => encodeWrite .cmd data
  | .rdAAddr => encodeRead .aAddr
  | .wrAAddr data => encodeWrite .aAddr data
  | .rdALen => encodeRead .aLen
  | .wrALen data => encodeWrite .aLen data
  | .rdBAddr => encodeRead .bAddr
  | .wrBAddr data => encodeWrite .bAddr data
  | .rdBLen => encodeRead .bLen
  | .wrBLen data => encodeWrite .bLen data
  | .rdResult0 => encodeRead .result0
  | .wrResult0 data => encodeWrite .result0 data
  | .rdResult1 => encodeRead .result1
  | .wrResult1 data => encodeWrite .result1 data
  | .rdErrAddr => encodeRead .errAddr
  | .wrErrAddr data => encodeWrite .errAddr data
  | .rdRsvd2C => encodeRead .rsvd2C
  | .wrRsvd2C data => encodeWrite .rsvd2C data
  | .rdRsvd30 => encodeRead .rsvd30
  | .wrRsvd30 data => encodeWrite .rsvd30 data
  | .rdRsvd34 => encodeRead .rsvd34
  | .wrRsvd34 data => encodeWrite .rsvd34 data
  | .rdRsvd38 => encodeRead .rsvd38
  | .wrRsvd38 data => encodeWrite .rsvd38 data
  | .rdRsvd3C => encodeRead .rsvd3C
  | .wrRsvd3C data => encodeWrite .rsvd3C data

/-- An instruction of spec/opcode_table.json as the table numbers its bits: 32 bits are a command word; one byte is a TXN
code (bit 7 is no bit of the code, so it must be 0), its data word all zero; five bytes are a TXN code and then the
data word. No other length is a format (R80, R89). -/
def encodedOfTable (nbits w : Nat) : Option Encoded :=
  if nbits = 32 then
    if w < 2 ^ 32 then some (.cmd (BitVec.ofNat 32 w)) else none
  else if nbits = 7 ∨ nbits = 8 then
    if w < 2 ^ 7 then some (.bus (BitVec.ofNat 7 w) 0#32) else none
  else if nbits = 40 then
    if w % 2 ^ 8 < 2 ^ 7 ∧ w < 2 ^ 40 then some (.bus (BitVec.ofNat 7 w) (BitVec.ofNat 32 (w / 2 ^ 8))) else none
  else none

/-- The instruction the decoder reads from a row's bits. -/
def decodeTableWord (nbits w : Nat) : Option Instr :=
  match encodedOfTable nbits w with
  | some e => (decode e).toOption
  | none => none

end Sys2Proof
end

