-- ==== Sys2Proof/Machine/State.lean ====
section
/-! DEFINITION. The state of one ZC-CORE instance with the memory and the bus it is attached to, as plain data; the ways a
step can stop; and the state after reset. -/

namespace Sys2Proof.Machine

/-- Why the machine stops. Each is one of the cases that R194 to R196 tell a model to record as a fault. -/
inductive Fault where
  /-- An accepted command's declared range holds an address with `MEM_READABLE = false`: the hardware's results are unspecified
  (R110, R194). Raised by CRC32, CMP, SEARCH and ENTROPY at completion; recorded in State by the memory's bus error, which ends
  the command with BUS (R193), and by a reset that abandons the command (log 18). Safe: the hardware goes on where the model stops. -/
  | unreadableDeclaredByte
  /-- An agent wrote a byte of a declared range between the accepted CMD write and the completion: a race (R60, R195).
  Raised by CRC32, CMP, SEARCH and ENTROPY at completion, or at the memory's bus error; recorded in State by a reset that abandons
  the command (log 18). Safe: the hardware goes on where the model stops. -/
  | declaredByteWritten
  /-- A declared range holds an address with `MEM_IDEMPOTENT = false`, or a byte of the register window: the number of
  reads is unspecified, so their side effects are too (R46, R57, R196). Raised by CRC32, CMP, SEARCH and ENTROPY at completion, or at the memory's bus error; recorded in State by a reset that
  abandons the command (log 18). Safe: the hardware goes on where the model stops. -/
  | sideEffectingMemory
deriving DecidableEq, Repr

/-- Why a step has no meaning. -/
inductive Refusal where
  /-- An instruction without a meaning yet: raised by no arm of this model. Safe. -/
  | notModelled (mnemonic : String)
  /-- A host access to the window that is not 32 bits wide or not at a multiple of 4: its effect is the platform's
  `ZC_SUBWORD_ACCESS` (R130, R197). Raised by the step, for the access. Safe: it gives the access no meaning. -/
  | subwordAccess
  /-- A register transaction made while the reset input is asserted (R222). Raised by the step, for the access. Safe: it
  gives the access no meaning. -/
  | accessDuringReset
deriving DecidableEq, Repr

/-- The fields of STATUS that hold a value (R25 to R29). Bits 7:4 and 31:12 hold none (R30). -/
structure Status where
  busy : Bool
  done : Bool
  err : Bool
  found : Bool
  errcode : BitVec 4
deriving DecidableEq, Repr

/-- The sequencer's reads issued and not yet answered (R40, "read state"). -/
inductive Reads where
  /-- Every read issued so far got its response. -/
  | answered
  /-- A read of the running command at this address never gets a response (R232). -/
  | unanswered (addr : Word)
deriving DecidableEq, Repr

/-- The internal sequencer state of R40, which no host can read. -/
structure Sequencer where
  /-- The opcode latched when the running command started (R108). -/
  op : BitVec 4
  /-- The position of the byte-serial scan. -/
  idx : BitVec 33
  /-- The running CRC register (R142). -/
  crc : Word
  /-- SEARCH's candidate offset. -/
  cand : Word
  /-- The histogram (R44). -/
  hist : Histogram
  /-- The read state. -/
  reads : Reads
  /-- MODEL: an agent wrote a byte of the running command's declared ranges since it started (R60, R195). -/
  raced : Bool
deriving DecidableEq, Repr

/-- What the outside world, or the core engine, does next. The list of turns in State is the interleaving of host contexts,
other agents and the engine, which R65 and R111 leave open. -/
inductive Turn where
  /-- A host context's access to the window (R65). -/
  | access (a : Access)
  /-- The core engine's completion step, if a command is running (R111). -/
  | core
  /-- An agent's write of one byte of memory is globally performed (R60, R66). -/
  | memWrite (addr : Word) (value : Byte)
  /-- The memory answers a read by the core with a bus error, and the command ends with it (R110, R193). -/
  | busError (addr : Word)
  /-- The memory never answers a read by the core (R232). -/
  | noAnswer (addr : Word)
  /-- The platform's reset input changes (R222). -/
  | resetInput (asserted : Bool)
deriving DecidableEq, Repr

/-- The platform's memory (R50): the bytes that are not zero, by rising address. -/
abbrev Memory := List Host.Cell

/-- One instance, and what it is attached to. ID and the CRC ROM are constants (R22, R43), CMD has no storage (R31), and IRQ is
a function of the state (R47), so none of them is a field. -/
structure State where
  /-- CTRL.IRQ_EN (R23). -/
  irqEn : Bool
  /-- STATUS (R25 to R30). -/
  status : Status
  /-- A_ADDR (R32). -/
  aAddr : Word
  /-- A_LEN (R33). -/
  aLen : Word
  /-- B_ADDR (R34). -/
  bAddr : Word
  /-- B_LEN (R35). -/
  bLen : Word
  /-- RESULT0 (R36). -/
  result0 : Word
  /-- RESULT1 (R37). -/
  result1 : Word
  /-- ERR_ADDR (R38). -/
  errAddr : Word
  /-- The internal sequencer (R40, R44). -/
  seq : Sequencer
  /-- The platform's memory (R50). -/
  mem : Memory
  /-- The platform's OPEN parameters (R7): no step changes them. -/
  platform : Platform
  /-- The platform's reset input is asserted (R222). -/
  inReset : Bool
  /-- MODEL: what the agents do next, first turn first (log 2). -/
  turns : List Turn
  /-- MODEL: the data word of the last read's response, which the host holds (R82); `none` before any read (log 3). -/
  response : Option Word
  /-- MODEL: how many unspecified values have been drawn (log 5). -/
  draws : Nat
  /-- MODEL: the fault recorded of a command that ended with BUS (R194, log 10) or was abandoned by a reset (R194 to R196, log 18);
  nothing clears it. -/
  recordedFault : Option Fault
deriving DecidableEq, Repr

/-- STATUS after reset: 0x00000000 (R220). -/
def Status.reset : Status :=
  { busy := false, done := false, err := false, found := false, errcode := 0#4 }

/-- The idle sequencer: no command running and no read outstanding (R48). The values of the op, idx, crc, cand and hist items
are DESIGN CHOICE, zero (log 6): the spec gives none. -/
def Sequencer.reset : Sequencer :=
  { op := 0#4, idx := 0#33, crc := 0#32, cand := 0#32, hist := Vector.replicate 256 0#32, reads := .answered, raced := false }

/-- A platform whose memory is readable and free of side effects everywhere but in the register window, which is at
0x40000000. DESIGN CHOICE (log 4): R7 leaves all of it OPEN. -/
def platformAtReset : Platform :=
  { zcBase := 0x40000000#32, unreadable := [], sideEffecting := [] }

/-- The machine right after reset (R48, R220), with no turn pending and no memory byte listed. -/
def State.reset : State :=
  { irqEn := false
    status := Status.reset
    aAddr := 0#32
    aLen := 0#32
    bAddr := 0#32
    bLen := 0#32
    result0 := 0#32
    result1 := 0#32
    errAddr := 0#32
    seq := Sequencer.reset
    mem := []
    platform := platformAtReset
    inReset := false
    turns := []
    response := none
    draws := 0
    recordedFault := none }

end Sys2Proof.Machine
end

