-- ==== Sys2Proof/Machine/Flags.lean ====
section
/-! DEFINITION. STATUS as a word, the ways its flags are written, the error codes and the interrupt output (R25 to R30, R45,
R104, R123, R200). -/

namespace Sys2Proof.Machine

/-- ERRCODE 1 (R191). -/
def errIllegalOp : BitVec 4 := 1#4

/-- ERRCODE 2 (R192). -/
def errRange : BitVec 4 := 2#4

/-- ERRCODE 3 (R193). -/
def errBus : BitVec 4 := 3#4

/-- STATUS as a host reads it: `zext_32(ERRCODE ++ 0b0000 ++ FOUND ++ ERR ++ DONE ++ BUSY)` (R30, R122). -/
def Status.toWord (t : Status) : Word :=
  (t.errcode ++ 0#4 ++ BitVec.ofBool t.found ++ BitVec.ofBool t.err ++ BitVec.ofBool t.done ++ BitVec.ofBool t.busy).setWidth 32

/-- An accepted CMD write first sets DONE, ERR and FOUND to 0 and ERRCODE to 0 (R104). -/
def Status.accept (t : Status) : Status :=
  { t with done := false, err := false, found := false, errcode := 0#4 }

/-- STATUS after a completion with no error (R112). -/
def Status.completedOk (found : Bool) : Status :=
  { busy := false, done := true, err := false, found := found, errcode := 0#4 }

/-- STATUS after an error completion (R113). -/
def Status.completedErr (code : BitVec 4) : Status :=
  { busy := false, done := false, err := true, found := false, errcode := code }

/-- A host write to STATUS: a 1 in bit 1 clears DONE and a 1 in bit 2 clears ERR; every other bit is ignored (R123). -/
def Status.writeOneToClear (v : Word) (t : Status) : Status :=
  { t with done := t.done && !v.getLsbD 1, err := t.err && !v.getLsbD 2 }

/-- CTRL as a host reads it: `zext_32(IRQ_EN)` (R24, R121). -/
def ctrlWord (s : State) : Word := (BitVec.ofBool s.irqEn).setWidth 32

/-- The interrupt output: `IRQ = CTRL.IRQ_EN & (STATUS.DONE | STATUS.ERR)` (R47, R200). -/
def irq (s : State) : Bool := s.irqEn && (s.status.done || s.status.err)

end Sys2Proof.Machine
end

