-- ==== Sys2Proof/Machine/Operands.lean ====
section
/-! DEFINITION. The operands of a command, their range check and the addresses they declare (R88, R106, R107). -/

namespace Sys2Proof.Machine

/-- An operand: the buffer of `len` bytes from `addr`. -/
structure Operand where
  addr : Word
  len : Word
deriving DecidableEq, Repr

/-- `used_operands(op)`, in the order in which they are checked (R107). CMP's buffer b has A_LEN bytes (R155). -/
def usedOperands (c : Command) (s : State) : List Operand :=
  match c with
  | .crc32 => [⟨s.aAddr, s.aLen⟩]
  | .cmp => [⟨s.aAddr, s.aLen⟩, ⟨s.bAddr, s.aLen⟩]
  | .search => [⟨s.aAddr, s.aLen⟩, ⟨s.bAddr, s.bLen⟩]
  | .entropy => [⟨s.aAddr, s.aLen⟩]

/-- `addr + len` does not go past 2^32, computed without wrap (R106). -/
def Operand.fits (o : Operand) : Bool :=
  decide (o.addr.toNat + o.len.toNat ≤ Config.memoryBytes)

/-- The start address of the first used operand that fails the range check, A before B (R106). -/
def rangeFailure (c : Command) (s : State) : Option Word :=
  ((usedOperands c s).find? (fun o => !o.fits)).map Operand.addr

/-- The address is in the operand's declared range, `addr` to `addr + len - 1` (R107). -/
def Operand.declares (o : Operand) (a : Nat) : Bool :=
  decide (o.addr.toNat ≤ a) && decide (a < o.addr.toNat + o.len.toNat)

/-- The address is in a declared range of the command (R107). -/
def declares (c : Command) (s : State) (a : Nat) : Bool :=
  (usedOperands c s).any (fun o => o.declares a)

/-- Every address of the command's declared ranges has the property. -/
def declaredAll (c : Command) (s : State) (p : Nat → Bool) : Bool :=
  (usedOperands c s).all (fun o => (List.range o.len.toNat).all (fun i => p (o.addr.toNat + i)))

end Sys2Proof.Machine
end

