-- ==== Sys2Proof/Machine/Ops.lean ====
section
/-! DEFINITION. The operations the instructions share: memory, the platform's map, the two completions, the command request and
the run of a command, reads and writes of the window, and the reset of the instance. -/

namespace Sys2Proof.Machine

/-! ## Memory -/

/-- What an address that is not listed reads as. DESIGN CHOICE (log 1): zero. -/
def Memory.fill : Byte := 0#8

/-- The byte at an address. -/
def Memory.read : Memory → Nat → Byte
  | [], _ => Memory.fill
  | (b, w) :: m, a => if a = b then w else Memory.read m a

/-- Memory with one byte written. A byte equal to what an unlisted address reads as is not listed. -/
def Memory.write : Memory → Nat → Byte → Memory
  | [], a, v => if v = Memory.fill then [] else [(a, v)]
  | (b, w) :: m, a, v =>
    if a < b then
      if v = Memory.fill then (b, w) :: m else (a, v) :: (b, w) :: m
    else if a = b then
      if v = Memory.fill then m else (a, v) :: m
    else (b, w) :: Memory.write m a v

/-- The cells lie at rising addresses from `lo`, inside the address space, and none holds what an unlisted address reads as. -/
def Memory.wfFrom (lo : Nat) : Memory → Bool
  | [] => true
  | (a, v) :: m => decide (lo ≤ a) && decide (a < Config.memoryBytes) && decide (v ≠ Memory.fill) && Memory.wfFrom (a + 1) m

/-- The canonical form: equal memories are equal lists. -/
def Memory.wf (m : Memory) : Bool := Memory.wfFrom 0 m

/-- `MemRead(addr, 1)` of an address that answers with data (R54). -/
def memRead (s : State) (a : Nat) : Byte := s.mem.read a

/-- The bytes of a buffer in increasing index order: `B[i] = MemRead(addr + i, 1)` for `0 <= i < len` (R9, R63). -/
def buffer (s : State) (addr len : Word) : List Byte :=
  (List.range len.toNat).map (fun i => memRead s (addr.toNat + i))

/-- `MEM_READABLE(a)` (R50). -/
def memReadable (p : Platform) (a : Nat) : Bool :=
  !p.unreadable.any (fun r => r.contains a)

/-- The 0x40 bytes of the register window (R20). -/
def windowRegion (p : Platform) : Region := ⟨p.zcBase.toNat, Config.windowBytes⟩

/-- `MEM_IDEMPOTENT(a)`. The register window counts as side-effecting memory (R46, R57). -/
def memIdempotent (p : Platform) (a : Nat) : Bool :=
  !p.sideEffecting.any (fun r => r.contains a) && !(windowRegion p).contains a

/-! ## Completions -/

/-- The sequencer with no read outstanding and no race recorded. -/
def Sequencer.settled (q : Sequencer) : Sequencer := { q with reads := .answered, raced := false }

/-- `complete_ok(r0, r1, found)`, one atomic update (R112). -/
def completeOk (r0 r1 : Word) (found : Bool) (s : State) : State :=
  { s with
    result0 := r0, result1 := r1, errAddr := 0#32
    status := Status.completedOk found
    seq := s.seq.settled }

/-- `complete_err(code, addr)`, one atomic update, and the one way an error is reported (R113, R190). There is no transfer of
control, no saved pc and no mode (R202). -/
def completeErr (code : BitVec 4) (addr : Word) (s : State) : State :=
  { s with
    result0 := 0#32, result1 := 0#32, errAddr := addr
    status := Status.completedErr code
    seq := s.seq.settled }

/-! ## The command request and the run of a command -/

/-- The start of a command: BUSY is 1 and `op` is latched (R108). -/
def startCommand (c : Command) (s : State) : State :=
  { s with
    status := { s.status.accept with busy := true }
    seq := { s.seq.settled with op := c.op } }

/-- The command request of a CMD write of `w` (R100): ignored while BUSY (R101), else accepted (R103, R104), then the decode
check (R105), the range check (R106) and the start (R108). -/
def requestCommand (w : Word) (s : State) : State :=
  if s.status.busy then s
  else
    match Command.ofWord w with
    | none => completeErr errIllegalOp 0#32 s
    | some c =>
      match rangeFailure c s with
      | some a => completeErr errRange a s
      | none => startCommand c s

/-- What a command's rule gives `complete_ok`, and what its scan leaves in the sequencer. -/
structure Completion where
  r0 : Word
  r1 : Word
  found : Bool
  seq : Sequencer

/-- `complete_ok` of a command's results (R112), with the sequencer as the scan leaves it. -/
def finish (k : Completion) (s : State) : State :=
  completeOk k.r0 k.r1 k.found { s with seq := k.seq }

/-- A read of a declared byte gets no response (R232). -/
def awaitsAnswer (c : Command) (s : State) : Bool :=
  match s.seq.reads with
  | .unanswered a => declares c s a.toNat
  | _ => false

/-- A fault that stands before any answer of memory: a declared byte with side effects (R57, R196), or written since the request
(R195). Their order is log 11; that they are looked at when the command ends, and not before, is the model's choice (log 18). -/
def accessFault (c : Command) (s : State) : Option Fault :=
  if !declaredAll c s (memIdempotent s.platform) then some .sideEffectingMemory
  else if s.seq.raced then some .declaredByteWritten
  else none

/-- The fault of a command that ends: one of `accessFault`, or an unreadable declared byte (R194). The order is log 11. -/
def commandFault (c : Command) (s : State) : Option Fault :=
  match accessFault c s with
  | some f => some f
  | none => if declaredAll c s (memReadable s.platform) then none else some .unreadableDeclaredByte

/-- The run of a command to its completion, in one step (R109 to R111). A used operand that does not fit ends it with
RANGE: after an accepted request that is never so (R106), and log 8 says why it is checked here too. A declared byte with side effects (R196),
written since the request (R195) or unreadable (R194) is a fault: at the completion, and of a command that reset abandons at the
reset, which is the model's choice (log 18). A read without an answer leaves BUSY at 1 (R232). Otherwise the
command completes with the results of its rule. Where it ends otherwise than so, or does not end, the sequencer's op, idx,
crc, cand and histogram keep what they held, uncleared: the model's choice (log 6). -/
def runCommand (c : Command) (result : State → Completion) (s : State) : Host.Outcome State Fault Refusal :=
  match rangeFailure c s with
  | some a => .next (completeErr errRange a s)
  | none =>
    match commandFault c s with
    | some f => .fault f
    | none => if awaitsAnswer c s then .next s else .next (finish (result s) s)

/-- The completion with BUS at an unreadable declared address, which the hardware may take where the model's completion faults
(R110, R193). The fault of R194 is recorded with it (log 10). The faults of R195 and R196 come first (log 11), and a read without
an answer leaves BUSY at 1 (R232). The scan items stay as they were: the model's choice (log 6). -/
def completeBus (c : Command) (a : Word) (s : State) : Host.Outcome State Fault Refusal :=
  match accessFault c s with
  | some f => .fault f
  | none =>
    if awaitsAnswer c s then .next s
    else .next { completeErr errBus a s with recordedFault := some .unreadableDeclaredByte }

/-! ## Reads and writes of the window -/

/-- A read's response is `v`; no read changes any state of ZC-CORE (R131). -/
def respond (v : Word) (s : State) : State := { s with response := some v }

/-- A read of RESULT0, RESULT1 or ERR_ADDR: the stored value, or a fresh unspecified one while BUSY (R127). -/
def respondResult (stored : Word) (s : State) : State :=
  if s.status.busy then { respond (Config.unspecifiedWord s.draws) s with draws := s.draws + 1 } else respond stored s

/-- A write of an operand register: ignored while BUSY (R126). -/
def writeOperand (written : State) (s : State) : State := if s.status.busy then s else written

/-! ## Reset -/

/-- The instance with every register and field at its reset value and the sequencer idle (R220, R221). The histogram counters
are free: their values are unspecified (R220). The record of a race goes with the command (`takeResetInput` keeps its fault:
log 18). Memory, the platform, what the host holds and a recorded fault stay. -/
def resetInstance (s : State) : State :=
  { s with
    irqEn := State.reset.irqEn, status := State.reset.status
    aAddr := State.reset.aAddr, aLen := State.reset.aLen, bAddr := State.reset.bAddr, bLen := State.reset.bLen
    result0 := State.reset.result0, result1 := State.reset.result1, errAddr := State.reset.errAddr
    seq := { State.reset.seq with hist := Config.unspecifiedHistogram s.draws }
    draws := s.draws + 1 }

end Sys2Proof.Machine
end

