-- ==== Sys2Proof/Machine/Compare.lean ====
section
/-! DEFINITION. CMP: the lexicographic comparator (42_comparator.md). -/

namespace Sys2Proof.Machine

/-- CMP's result for equal buffers (R151). -/
def resultEqual : Word := 0x00000000#32

/-- CMP's result when a is greater (R151). -/
def resultGreater : Word := 0x00000001#32

/-- CMP's result when a is less (R151). -/
def resultLess : Word := 0xFFFFFFFF#32

/-- The first index below `len` at which the buffers at `a` and `b` differ, scanning from index 0 (R151). -/
def firstDifference (s : State) (a b len : Word) : Option Nat :=
  (List.range len.toNat).find? (fun i => decide (memRead s (a.toNat + i) ≠ memRead s (b.toNat + i)))

/-- Less, equal or greater by unsigned byte value at the first difference (R150, R151). -/
def compareResult (s : State) (a b len : Word) : Word :=
  match firstDifference s a b len with
  | none => resultEqual
  | some i => if memRead s (a.toNat + i) < memRead s (b.toNat + i) then resultLess else resultGreater

/-- `complete_ok(result, 0, 0)` (R150). The scan stops at the first difference. -/
def cmpCompletion (s : State) : Completion :=
  { r0 := compareResult s s.aAddr s.bAddr s.aLen, r1 := 0#32, found := false
    seq := { s.seq with idx := BitVec.ofNat 33 ((firstDifference s s.aAddr s.bAddr s.aLen).getD s.aLen.toNat) } }

/-- CMP (R150). -/
def execCmp (s : State) : Host.Outcome State Fault Refusal := runCommand .cmp cmpCompletion s

end Sys2Proof.Machine
end

