-- ==== Sys2Proof/Machine/Entropy.lean ====
section
/-! DEFINITION. ENTROPY: the histogram, the entropy function held to R174, and the command (44_entropy.md). -/

namespace Sys2Proof.Machine

/-- `for v in 0 .. 255: H[v] <- 0` (R170). -/
def emptyHistogram : Histogram := Vector.replicate 256 0#32

/-- `H[b] <- H[b] + 1` (R170). -/
def countByte (h : Histogram) (b : Byte) : Histogram :=
  h.set b.toNat (h[b.toNat]'b.isLt + 1#32) b.isLt

/-- The first pass: each byte counted once (R172). -/
def histogram (bytes : List Byte) : Histogram := bytes.foldl countByte emptyHistogram

/-- The counts of the values that occur (R178). -/
def occurring (h : Histogram) : List Word := h.toList.filter (fun c => decide (c ≠ 0#32))

/-- All values that occur are equally frequent (R174, E2, E4 to E6). -/
def equallyFrequent (h : Histogram) : Bool :=
  (occurring h).all (fun c => decide (some c = (occurring h).head?))

/-- +0.0 (R171, R182). -/
def binary64Zero : Binary64 := 0x0000000000000000#64

/-- 8.0, the largest result (R171, R174 E3). -/
def binary64Eight : Binary64 := 0x4020000000000000#64

/-- The exact results of R174 E5: for k = 2^j equally frequent values, the binary64 j. -/
def dyadicEntropy : List (Nat × Binary64) :=
  [(1, 0x0000000000000000#64), (2, 0x3FF0000000000000#64), (4, 0x4000000000000000#64), (8, 0x4008000000000000#64),
   (16, 0x4010000000000000#64), (32, 0x4014000000000000#64), (64, 0x4018000000000000#64), (128, 0x401C000000000000#64),
   (256, 0x4020000000000000#64)]

/-- The exact result for k equally frequent values, when k is a power of two (R174 E5). -/
def exactEntropy (k : Nat) : Option Binary64 :=
  (dyadicEntropy.find? (fun row => row.1 == k)).map Prod.snd

/-- The exact result for the next power of two at or above k (R174 E5, E6). -/
def entropyAbove (k : Nat) : Binary64 :=
  ((dyadicEntropy.find? (fun row => decide (k ≤ row.1))).map Prod.snd).getD binary64Eight

/-- `x` moved into the interval from `lo` to `hi`. The bits of non-negative binary64 values are ordered as the values are. -/
def clampBits (lo hi x : Binary64) : Binary64 := if x < lo then lo else if hi < x then hi else x

/-- The largest result for k equally frequent values: exact for a power of two (E5), else a free value no less than the largest
result for k - 1 and no more than the exact result above (E6). -/
def entropyCeilingOf : Nat → Binary64
  | 0 => binary64Zero
  | k + 1 => (exactEntropy (k + 1)).getD (clampBits (entropyCeilingOf k) (entropyAbove (k + 1)) (Config.entropyCeiling (k + 1)))

/-- The result for k equally frequent values: exact for a power of two (E2, E4, E5), else a free value between the largest
result for k - 1 and the largest for k (E6). -/
def equalEntropy (k : Nat) (free : Binary64) : Binary64 :=
  (exactEntropy k).getD (clampBits (entropyCeilingOf (k - 1)) (entropyCeilingOf k) free)

/-- `ENTROPY_FN(H, n)`: an OPEN parameter, a function of H and n alone, with properties E2 to E6 for every value of the free
constants of Config (R174; log 7). E7 is a property of its own, `Safety.EntropyWithin`. -/
def entropyFn (h : Histogram) (n : Word) : Binary64 :=
  if equallyFrequent h then equalEntropy (occurring h).length (Config.entropyBits h n)
  else clampBits binary64Zero binary64Eight (Config.entropyBits h n)

/-- The entropy of operand A, from its histogram: +0.0 for an empty buffer, without ENTROPY_FN (R170, R182). -/
def entropyOf (h : Histogram) (n : Word) : Binary64 := if n = 0#32 then binary64Zero else entropyFn h n

/-- `complete_ok(e[31:0], e[63:32], 0)` (R170, R171). -/
def entropyCompletion (s : State) : Completion :=
  let h := histogram (buffer s s.aAddr s.aLen)
  let e := entropyOf h s.aLen
  { r0 := e.extractLsb' 0 32, r1 := e.extractLsb' 32 32, found := false
    seq := { s.seq with idx := s.aLen.setWidth 33, hist := h } }

/-- ENTROPY (R170). -/
def execEntropy (s : State) : Host.Outcome State Fault Refusal := runCommand .entropy entropyCompletion s

end Sys2Proof.Machine
end

