-- ==== Sys2Proof/Machine/Search.lean ====
section
/-! DEFINITION. SEARCH: the pattern matcher (43_search.md). -/

namespace Sys2Proof.Machine

/-- The sentinel for "not found" (R161). -/
def notFound : Word := 0xFFFFFFFF#32

/-- The needle's bytes equal the haystack's from offset `i` (R162). -/
def matchesAt (s : State) (i : Nat) : Bool :=
  (List.range s.bLen.toNat).all (fun j => decide (memRead s (s.aAddr.toNat + i + j) = memRead s (s.bAddr.toNat + j)))

/-- The leftmost matching offset, tried in increasing order; none for an empty or an oversized needle (R160, R162 to
R164). -/
def searchOffset (s : State) : Option Nat :=
  if s.bLen.toNat = 0 ∨ s.aLen.toNat < s.bLen.toNat then none
  else (List.range (s.aLen.toNat - s.bLen.toNat + 1)).find? (matchesAt s)

/-- `complete_ok(i, 0, 1)` or `complete_ok(0xFFFFFFFF, 0, 0)` (R160, R161). The scan ends at the offset found, or after the
last candidate. -/
def searchCompletion (s : State) : Completion :=
  match searchOffset s with
  | some i =>
    { r0 := BitVec.ofNat 32 i, r1 := 0#32, found := true
      seq := { s.seq with idx := BitVec.ofNat 33 i, cand := BitVec.ofNat 32 i } }
  | none =>
    { r0 := notFound, r1 := 0#32, found := false
      seq := { s.seq with idx := s.aLen.setWidth 33, cand := s.aLen - s.bLen } }

/-- SEARCH (R160). -/
def execSearch (s : State) : Host.Outcome State Fault Refusal := runCommand .search searchCompletion s

end Sys2Proof.Machine
end

