-- ==== Sys2Proof/Machine/Window.lean ====
section
/-! DEFINITION. The register transactions: one definition per read and per write of each slot of the window (40_command.md,
section 3). -/

namespace Sys2Proof.Machine

/-- ID: 0x5A43 ("ZC") and revision 7, hardwired (R22). -/
def idWord : Word := 0x5A430007#32

/-- What the slots without storage read as: CMD and the reserved offsets (R31, R39). -/
def noStorageWord : Word := 0x00000000#32

/-- RD ID (R120). -/
def execRdId (s : State) : Host.Outcome State Fault Refusal := .next (respond idWord s)

/-- WR ID has no effect (R22, R120). -/
def execWrId (_v : Word) (s : State) : Host.Outcome State Fault Refusal := .next s

/-- RD CTRL (R121). -/
def execRdCtrl (s : State) : Host.Outcome State Fault Refusal := .next (respond (ctrlWord s) s)

/-- WR CTRL sets IRQ_EN to bit 0 and ignores the rest, whatever BUSY is (R23, R121). -/
def execWrCtrl (v : Word) (s : State) : Host.Outcome State Fault Refusal := .next { s with irqEn := v.getLsbD 0 }

/-- RD STATUS (R122). -/
def execRdStatus (s : State) : Host.Outcome State Fault Refusal := .next (respond s.status.toWord s)

/-- WR STATUS clears DONE and ERR where a 1 is written (R123). -/
def execWrStatus (v : Word) (s : State) : Host.Outcome State Fault Refusal := .next { s with status := s.status.writeOneToClear v }

/-- RD CMD returns 0 (R124). -/
def execRdCmd (s : State) : Host.Outcome State Fault Refusal := .next (respond noStorageWord s)

/-- WR CMD is the command request (R100, R124). -/
def execWrCmd (v : Word) (s : State) : Host.Outcome State Fault Refusal := .next (requestCommand v s)

/-- RD A_ADDR, also while BUSY (R125). -/
def execRdAAddr (s : State) : Host.Outcome State Fault Refusal := .next (respond s.aAddr s)

/-- WR A_ADDR: all 32 bits, ignored while BUSY (R126). -/
def execWrAAddr (v : Word) (s : State) : Host.Outcome State Fault Refusal := .next (writeOperand { s with aAddr := v } s)

/-- RD A_LEN, also while BUSY (R125). -/
def execRdALen (s : State) : Host.Outcome State Fault Refusal := .next (respond s.aLen s)

/-- WR A_LEN: all 32 bits, ignored while BUSY (R126). -/
def execWrALen (v : Word) (s : State) : Host.Outcome State Fault Refusal := .next (writeOperand { s with aLen := v } s)

/-- RD B_ADDR, also while BUSY (R125). -/
def execRdBAddr (s : State) : Host.Outcome State Fault Refusal := .next (respond s.bAddr s)

/-- WR B_ADDR: all 32 bits, ignored while BUSY (R126). -/
def execWrBAddr (v : Word) (s : State) : Host.Outcome State Fault Refusal := .next (writeOperand { s with bAddr := v } s)

/-- RD B_LEN, also while BUSY (R125). -/
def execRdBLen (s : State) : Host.Outcome State Fault Refusal := .next (respond s.bLen s)

/-- WR B_LEN: all 32 bits, ignored while BUSY (R126). -/
def execWrBLen (v : Word) (s : State) : Host.Outcome State Fault Refusal := .next (writeOperand { s with bLen := v } s)

/-- RD RESULT0 (R127). -/
def execRdResult0 (s : State) : Host.Outcome State Fault Refusal := .next (respondResult s.result0 s)

/-- WR RESULT0 has no effect (R128). -/
def execWrResult0 (_v : Word) (s : State) : Host.Outcome State Fault Refusal := .next s

/-- RD RESULT1 (R127). -/
def execRdResult1 (s : State) : Host.Outcome State Fault Refusal := .next (respondResult s.result1 s)

/-- WR RESULT1 has no effect (R128). -/
def execWrResult1 (_v : Word) (s : State) : Host.Outcome State Fault Refusal := .next s

/-- RD ERR_ADDR (R127). -/
def execRdErrAddr (s : State) : Host.Outcome State Fault Refusal := .next (respondResult s.errAddr s)

/-- WR ERR_ADDR has no effect (R128). -/
def execWrErrAddr (_v : Word) (s : State) : Host.Outcome State Fault Refusal := .next s

/-- RD of the reserved offset 0x2C returns 0 (R129). -/
def execRdRsvd2C (s : State) : Host.Outcome State Fault Refusal := .next (respond noStorageWord s)

/-- WR of the reserved offset 0x2C has no effect (R129). -/
def execWrRsvd2C (_v : Word) (s : State) : Host.Outcome State Fault Refusal := .next s

/-- RD of the reserved offset 0x30 returns 0 (R129). -/
def execRdRsvd30 (s : State) : Host.Outcome State Fault Refusal := .next (respond noStorageWord s)

/-- WR of the reserved offset 0x30 has no effect (R129). -/
def execWrRsvd30 (_v : Word) (s : State) : Host.Outcome State Fault Refusal := .next s

/-- RD of the reserved offset 0x34 returns 0 (R129). -/
def execRdRsvd34 (s : State) : Host.Outcome State Fault Refusal := .next (respond noStorageWord s)

/-- WR of the reserved offset 0x34 has no effect (R129). -/
def execWrRsvd34 (_v : Word) (s : State) : Host.Outcome State Fault Refusal := .next s

/-- RD of the reserved offset 0x38 returns 0 (R129). -/
def execRdRsvd38 (s : State) : Host.Outcome State Fault Refusal := .next (respond noStorageWord s)

/-- WR of the reserved offset 0x38 has no effect (R129). -/
def execWrRsvd38 (_v : Word) (s : State) : Host.Outcome State Fault Refusal := .next s

/-- RD of the reserved offset 0x3C returns 0 (R129). -/
def execRdRsvd3C (s : State) : Host.Outcome State Fault Refusal := .next (respond noStorageWord s)

/-- WR of the reserved offset 0x3C has no effect (R129). -/
def execWrRsvd3C (_v : Word) (s : State) : Host.Outcome State Fault Refusal := .next s

end Sys2Proof.Machine
end

