-- ==== Sys2Proof/Machine/Dispatch.lean ====
section
/-! DEFINITION. One arm per instruction: each calls its meaning. -/

namespace Sys2Proof.Machine

def exec (i : Instr) (s : State) : Host.Outcome State Fault Refusal :=
  match i with
  | .crc32 => Sys2Proof.Machine.execCrc32 s
  | .cmp => Sys2Proof.Machine.execCmp s
  | .search => Sys2Proof.Machine.execSearch s
  | .entropy => Sys2Proof.Machine.execEntropy s
  | .rdId => Sys2Proof.Machine.execRdId s
  | .wrId v => Sys2Proof.Machine.execWrId v s
  | .rdCtrl => Sys2Proof.Machine.execRdCtrl s
  | .wrCtrl v => Sys2Proof.Machine.execWrCtrl v s
  | .rdStatus => Sys2Proof.Machine.execRdStatus s
  | .wrStatus v => Sys2Proof.Machine.execWrStatus v s
  | .rdCmd => Sys2Proof.Machine.execRdCmd s
  | .wrCmd v => Sys2Proof.Machine.execWrCmd v s
  | .rdAAddr => Sys2Proof.Machine.execRdAAddr s
  | .wrAAddr v => Sys2Proof.Machine.execWrAAddr v s
  | .rdALen => Sys2Proof.Machine.execRdALen s
  | .wrALen v => Sys2Proof.Machine.execWrALen v s
  | .rdBAddr => Sys2Proof.Machine.execRdBAddr s
  | .wrBAddr v => Sys2Proof.Machine.execWrBAddr v s
  | .rdBLen => Sys2Proof.Machine.execRdBLen s
  | .wrBLen v => Sys2Proof.Machine.execWrBLen v s
  | .rdResult0 => Sys2Proof.Machine.execRdResult0 s
  | .wrResult0 v => Sys2Proof.Machine.execWrResult0 v s
  | .rdResult1 => Sys2Proof.Machine.execRdResult1 s
  | .wrResult1 v => Sys2Proof.Machine.execWrResult1 v s
  | .rdErrAddr => Sys2Proof.Machine.execRdErrAddr s
  | .wrErrAddr v => Sys2Proof.Machine.execWrErrAddr v s
  | .rdRsvd2C => Sys2Proof.Machine.execRdRsvd2C s
  | .wrRsvd2C v => Sys2Proof.Machine.execWrRsvd2C v s
  | .rdRsvd30 => Sys2Proof.Machine.execRdRsvd30 s
  | .wrRsvd30 v => Sys2Proof.Machine.execWrRsvd30 v s
  | .rdRsvd34 => Sys2Proof.Machine.execRdRsvd34 s
  | .wrRsvd34 v => Sys2Proof.Machine.execWrRsvd34 v s
  | .rdRsvd38 => Sys2Proof.Machine.execRdRsvd38 s
  | .wrRsvd38 v => Sys2Proof.Machine.execWrRsvd38 v s
  | .rdRsvd3C => Sys2Proof.Machine.execRdRsvd3C s
  | .wrRsvd3C v => Sys2Proof.Machine.execWrRsvd3C v s

end Sys2Proof.Machine
end

