-- ==== Sys2Proof/Machine/Turns.lean ====
section
/-! DEFINITION. What each turn does, which turn is next, and how an instruction is put where the next step takes it (R65, R109,
R111, R220 to R222). -/

namespace Sys2Proof.Machine

/-- A host's access to the window: refused while reset is asserted (R222), refused when it is not an aligned 32-bit access
(R130), else the transaction it decodes to. -/
def takeAccess (a : Access) (s : State) : Host.Outcome State Fault Refusal :=
  if s.inReset then .refused .accessDuringReset
  else
    match decodeAccess a with
    | .ok i => exec i s
    | .error _ => .refused .subwordAccess

/-- The word of the running command: the latched opcode, zero above (R81, R108). -/
def runningWord (s : State) : Word := s.seq.op.setWidth 32

/-- The core engine's turn: the running command, decoded from the latched opcode, runs to completion (R109, R111). Without a
running command the engine does nothing (R210). An opcode outside R83 is never latched; it would end as R105 says. -/
def takeCore (s : State) : Host.Outcome State Fault Refusal :=
  if s.status.busy then
    match decode (.cmd (runningWord s)) with
    | .ok i => exec i s
    | .error _ => .next (completeErr errIllegalOp 0#32 s)
  else .next s

/-- The command that is running, if any: the one whose opcode is latched, while BUSY (R25, R108). -/
def runningCommand (s : State) : Option Command :=
  if s.status.busy then Command.ofOp s.seq.op else none

/-- The address is in a declared range of the running command (R107). -/
def runningDeclares (s : State) (a : Nat) : Bool :=
  match runningCommand s with
  | some c => declares c s a
  | none => false

/-- An agent's write of a byte, and the record of it when the byte is declared by the running command (R60, R195). -/
def takeMemWrite (a : Word) (v : Byte) (s : State) : State :=
  { s with
    mem := s.mem.write a.toNat v
    seq := { s.seq with raced := s.seq.raced || runningDeclares s a.toNat } }

/-- A bus error for a read by the core ends the running command with BUS. Only a declared, unreadable address of the running
command can get one (R56, R110, R193): at any other the turn has no effect. -/
def takeBusError (a : Word) (s : State) : Host.Outcome State Fault Refusal :=
  match runningCommand s with
  | some c => if declares c s a.toNat && !memReadable s.platform a.toNat then completeBus c a s else .next s
  | none => .next s

/-- A read by the core that is never answered. The core reads declared addresses only (R56, R232). -/
def takeNoAnswer (a : Word) (s : State) : State :=
  if runningDeclares s a.toNat then { s with seq := { s.seq with reads := .unanswered a } } else s

/-- The fault of the running command, if one runs and has one. -/
def runningFault (s : State) : Option Fault :=
  match runningCommand s with
  | some c => commandFault c s
  | none => none

/-- The reset input: asserting it resets the instance (R220, R221), and it holds until released (R222). A command that the reset
abandons reports no completion (R221); that the fault it had (R194 to R196) is recorded is the model's choice (log 18). -/
def takeResetInput (asserted : Bool) (s : State) : State :=
  if asserted then { resetInstance s with inReset := true, recordedFault := (runningFault s).or s.recordedFault } else { s with inReset := false }

/-- One turn. -/
def takeTurn (t : Turn) (s : State) : Host.Outcome State Fault Refusal :=
  match t with
  | .access a => takeAccess a s
  | .core => takeCore s
  | .memWrite a v => .next (takeMemWrite a v s)
  | .busError a => takeBusError a s
  | .noAnswer a => .next (takeNoAnswer a s)
  | .resetInput b => .next (takeResetInput b s)

/-- The next turn: the first one pending, and with none pending the core's, so that a started command completes (R111, R114,
R232). -/
def advance (s : State) : Host.Outcome State Fault Refusal :=
  match s.turns with
  | [] => takeCore s
  | t :: ts => takeTurn t { s with turns := ts }

/-- A command word, as the engine takes it: the state in which its command has just started (R108), and the engine's turn
next. A word that is no command's is only ever the data of a CMD write, so that write is the next turn (R105). -/
def placeCommand (w : Word) (s : State) : State :=
  match Command.ofWord w with
  | some c => { startCommand c s with inReset := false, turns := .core :: s.turns }
  | none =>
    { s with inReset := false, turns := .access { width := 32, write := true, offset := Register.cmd.offset, data := w } :: s.turns }

/-- A register transaction, as the window takes it: the next turn is the access with that TXN code and data (R82). -/
def placeTransaction (txn : BitVec 7) (data : Word) (s : State) : State :=
  { s with
    inReset := false
    turns := .access { width := 32, write := txn.getLsbD 6, offset := txn.extractLsb' 0 6, data := data } :: s.turns }

/-- An encoded instruction where the next step takes it. -/
def place (e : Encoded) (s : State) : State :=
  match e with
  | .cmd w => placeCommand w s
  | .bus txn data => placeTransaction txn data s

/-- The instruction with the given bits where the next step takes it; bits of no format leave the state as it is. -/
def placeTableWord (s : State) (nbits w : Nat) : State :=
  match encodedOfTable nbits w with
  | some e => place e s
  | none => s

end Sys2Proof.Machine
end

