-- ==== Sys2Proof/Machine/Step.lean ====
section
/-! DEFINITION. The step: the next turn of the outside world or of the core engine. -/

namespace Sys2Proof.Machine

/-- One step: the first pending turn, or the core's when none is pending. -/
def step (s : State) : Host.Outcome State Fault Refusal := advance s

/-- The state with an instruction's bits where the step takes its next instruction from. -/
def State.withFetchWord (s : State) (nbits w : Nat) : State := placeTableWord s nbits w

end Sys2Proof.Machine
end

