-- ==== Sys2Proof/Machine/HostProgram.lean ====
section
/-! DEFINITION. Host programs: the lines of R90, the pseudo-operations of R91, how a host context runs its program, and the encoding of
a program (R92). -/

namespace Sys2Proof.Machine

/-- `WR <reg>, <value>` as the host's access (R90). -/
def hostWrite (r : Register) (v : Word) : Turn :=
  .access { width := 32, write := true, offset := r.offset, data := v }

/-- `RD <reg>` as the host's access (R90). -/
def hostRead (r : Register) : Turn :=
  .access { width := 32, write := false, offset := r.offset, data := 0#32 }

/-- A line of a host program (R90). Host variables are numbered. -/
inductive HostLine where
  /-- `WR <reg>, <value>`. -/
  | write (r : Register) (v : Word)
  /-- `RD <reg> -> <var>`. -/
  | read (r : Register) (var : Nat)
  /-- `if <var> & <mask> goto l`, the label `l` standing `back` lines above: the host's own control flow, no transaction. -/
  | gotoIf (var : Nat) (mask : Word) (back : Nat)
deriving DecidableEq, Repr

/-- `WR CMD, <mnemonic>` (R90). -/
def hostCommand (c : Command) : HostLine := .write .cmd (0#28 ++ c.op)

/-- `SETA <addr>, <len>` (R91). -/
def setA (addr len : Word) : List HostLine := [.write .aAddr addr, .write .aLen len]

/-- `SETB <addr>, <len>` (R91). -/
def setB (addr len : Word) : List HostLine := [.write .bAddr addr, .write .bLen len]

/-- `ACK`: clears DONE and ERR (R91). -/
def ack : List HostLine := [.write .status 0x00000006#32]

/-- `POLL -> <var>`: `l: RD STATUS -> <var>` and `if <var> & 0x1 goto l` (R91). -/
def poll (var : Nat) : List HostLine := [.read .status var, .gotoIf var 0x00000001#32 1]

/-- `RUN <mnemonic> -> <var>` (R91). -/
def run (c : Command) (var : Nat) : List HostLine := hostCommand c :: poll var

/-- A host context: its program, the line it is at, and its variables, the last one written first. -/
structure HostContext where
  program : List HostLine
  line : Nat
  vars : List (Nat × Word)
deriving DecidableEq, Repr

/-- The value of a host variable. R90 does not say what one holds before a read into it: a free value, the model's choice (log 19). -/
def HostContext.var (h : HostContext) (v : Nat) : Word :=
  match h.vars.find? (fun p => p.1 == v) with
  | some p => p.2
  | none => Config.unreadVariable v

/-- The context at its next line. -/
def HostContext.nextLine (h : HostContext) : HostContext := { h with line := h.line + 1 }

/-- `if <var> & <mask> goto l` (R90, R91): back to the label when a bit of the mask is set in the variable, else on. A
variable never read into branches on a free value (log 19). -/
def HostContext.branch (h : HostContext) (var : Nat) (mask : Word) (back : Nat) : HostContext :=
  if h.var var &&& mask ≠ 0#32 then { h with line := h.line - back } else h.nextLine

/-- A second computation after a first that gives a next state. -/
def andThen {σ τ : Type} (o : Host.Outcome σ Fault Refusal) (f : σ → Host.Outcome τ Fault Refusal) : Host.Outcome τ Fault Refusal :=
  match o with
  | .next s => f s
  | .fault r => .fault r
  | .refused r => .refused r

/-- One line of a host context's program, on the machine (R90). A program that has ended does nothing. -/
def hostStep (h : HostContext) (s : State) : Host.Outcome (HostContext × State) Fault Refusal :=
  match h.program[h.line]? with
  | some (.write r v) => andThen (takeTurn (hostWrite r v) s) (fun t => .next (h.nextLine, t))
  | some (.read r var) =>
    andThen (takeTurn (hostRead r) s) (fun t =>
      .next ({ h.nextLine with vars := (t.response.toList.map (fun x => (var, x))) ++ h.vars }, t))
  | some (.gotoIf var mask back) => .next (h.branch var mask back, s)
  | none => .next (h, s)

/-- The turns of other agents, one after the other. -/
def takeTurns : List Turn → State → Host.Outcome State Fault Refusal
  | [], s => .next s
  | t :: ts, s => andThen (takeTurn t s) (takeTurns ts)

/-- As many lines of the program as `others` has entries, the other agents' turns of each entry taken before its line. When
they fall is left open (R65, R111), so `others` is any list. -/
def hostRun : List (List Turn) → HostContext → State → Host.Outcome (HostContext × State) Fault Refusal
  | [], h, s => .next (h, s)
  | ts :: others, h, s => andThen (takeTurns ts s) (fun t => andThen (hostStep h t) (fun p => hostRun others p.1 p.2))

/-- One line's transaction: `TXN:data` for a write, `TXN` for a read, none for host control flow (R90, R92). -/
def lineTransaction (l : HostLine) : Option (BitVec 7 × Option Word) :=
  match l with
  | .write r v => some (txnCode true r.offset, some v)
  | .read r _ => some (txnCode false r.offset, none)
  | .gotoIf _ _ _ => none

/-- A program is encoded as the list of its transactions (R92). -/
def encodeProgram (lines : List HostLine) : List (BitVec 7 × Option Word) := lines.filterMap lineTransaction

end Sys2Proof.Machine
end

