-- ==== Sys2Proof/Safety.lean ====
section
/-! DEFINITION. The terms claims are stated in: when a command runs to its results, the values STATUS can take, the invariant of
a run, and the real entropy that ENTROPY_FN approximates. -/

namespace Sys2Proof.Safety

open Sys2Proof.Machine

/-- The conditions of R110 under which a started command completes with the results of its rule: the operands fit (R106), every
declared byte is readable (R194) and free of side effects (R196), no declared byte was written since the request (R195), and every
read was answered (R232). -/
def runs (c : Command) (s : State) : Bool :=
  decide (rangeFailure c s = none) && declaredAll c s (memReadable s.platform) && declaredAll c s (memIdempotent s.platform) &&
    !s.seq.raced && decide (s.seq.reads = .answered)

/-- Every value STATUS can take (R30). -/
def statusValues : List Word :=
  [0x00000000#32, 0x00000001#32, 0x00000002#32, 0x0000000A#32, 0x00000008#32, 0x00000104#32, 0x00000204#32, 0x00000304#32,
   0x00000100#32, 0x00000200#32, 0x00000300#32]

/-- What holds of every state a run can reach. -/
structure RunInv (s : State) : Prop where
  /-- Memory is in its canonical form. -/
  memory : s.mem.wf = true
  /-- STATUS reads as one of the values of R30. -/
  status : s.status.toWord ∈ statusValues
  /-- The running command is one of the four, and passed its range check (R105, R106, R108). -/
  running : s.status.busy = true → ∃ c : Command, s.seq.op = c.op ∧ rangeFailure c s = none
  /-- Without a running command no read is outstanding (R48). -/
  idle : s.status.busy = false → s.seq.reads = .answered ∧ s.seq.raced = false
  /-- No command runs while reset is asserted (R221, R222). -/
  held : s.inReset = true → s.status.busy = false
  /-- ERR_ADDR is 0 unless the last completion was a RANGE or BUS error (R38). -/
  errAddr : s.status.busy = false → s.status.errcode ≠ errRange → s.status.errcode ≠ errBus → s.errAddr = 0#32
  /-- The results are 0 after an error (R36, R37). -/
  errResults : s.status.busy = false → s.status.errcode ≠ 0#4 → s.result0 = 0#32 ∧ s.result1 = 0#32
  /-- The sentinel is no found offset (R168). -/
  sentinel : s.status.busy = false → s.status.found = true → s.result0 ≠ notFound
  /-- RESULT1 is the high word of a binary64 in [+0.0, 8.0] (R37, R174 E3). -/
  entropyHigh : s.result1 ≤ 0x40200000#32

/-- A transaction whose TXN code has W = 0 (R82). -/
def isRead (i : Instr) : Bool :=
  match encode i with
  | .bus txn _ => !txn.getLsbD 6
  | .cmd _ => false

/-- A register transaction, and no command word (R80). -/
def isTransaction (i : Instr) : Bool :=
  match encode i with
  | .bus _ _ => true
  | .cmd _ => false

/-- Everything but STATUS, the result registers, ERR_ADDR and the sequencer is as before: CTRL, the operand registers, memory, the
platform, the reset input, the pending turns, the host's response, the count of draws and a recorded fault. -/
structure KeepsInputs (s t : State) : Prop where
  irqEn : t.irqEn = s.irqEn
  aAddr : t.aAddr = s.aAddr
  aLen : t.aLen = s.aLen
  bAddr : t.bAddr = s.bAddr
  bLen : t.bLen = s.bLen
  mem : t.mem = s.mem
  platform : t.platform = s.platform
  inReset : t.inReset = s.inReset
  turns : t.turns = s.turns
  response : t.response = s.response
  draws : t.draws = s.draws
  recordedFault : t.recordedFault = s.recordedFault

/-- The result registers, ERR_ADDR, FOUND and ERRCODE are as before (R115). -/
def KeepsResults (s t : State) : Prop :=
  t.result0 = s.result0 ∧ t.result1 = s.result1 ∧ t.errAddr = s.errAddr ∧ t.status.found = s.status.found ∧
    t.status.errcode = s.status.errcode

/-- `t` is `s` after a completion with no error and these results (R112). -/
structure CompletedWith (s t : State) (r0 r1 : Word) (found : Bool) : Prop where
  result0 : t.result0 = r0
  result1 : t.result1 = r1
  errAddr : t.errAddr = 0#32
  status : t.status = { busy := false, done := true, err := false, found := found, errcode := 0#4 }
  inputs : KeepsInputs s t

/-- `t` is `s` after an error completion with this code and address (R113, R190). -/
structure FailedWith (s t : State) (code : BitVec 4) (addr : Word) : Prop where
  result0 : t.result0 = 0#32
  result1 : t.result1 = 0#32
  errAddr : t.errAddr = addr
  status : t.status = { busy := false, done := false, err := true, found := false, errcode := code }
  inputs : KeepsInputs s t

/-- The needle (operand B) occurs in the haystack (operand A) at offset `i`: it is not empty, it lies inside, and all its bytes are
equal (R162 to R164). -/
def NeedleAt (s : State) (i : Nat) : Prop :=
  1 ≤ s.bLen.toNat ∧ i + s.bLen.toNat ≤ s.aLen.toNat ∧
    ∀ j < s.bLen.toNat, memRead s (s.aAddr.toNat + i + j) = memRead s (s.bAddr.toNat + j)

/-- Bytes packed into one number, the byte at the lowest address most significant (R52). -/
def packBigEndian (bytes : List Byte) : Nat := bytes.foldl (fun acc b => acc * 256 + b.toNat) 0

/-- The checksum by the bitwise form of R147: no table. -/
def bitwiseChecksum (bytes : List Byte) : Word :=
  ~~~ bytes.foldl (fun crc b => crcRounds8 (crc ^^^ b.setWidth 32)) 0xFFFFFFFF#32

/-- An outcome with its next state changed. -/
def mapNext (f : State → State) : Host.Outcome State Fault Refusal → Host.Outcome State Fault Refusal
  | .next s => .next (f s)
  | .fault r => .fault r
  | .refused r => .refused r

/-- The real number a finite binary64 stands for (R171): sign bit 63, exponent bits 62:52, fraction bits 51:0. -/
noncomputable def binary64Value (x : Binary64) : ℝ :=
  let fraction : ℝ := ((x.extractLsb' 0 52).toNat : ℝ)
  let exponent := (x.extractLsb' 52 11).toNat
  let magnitude : ℝ := if exponent = 0 then fraction / 2 ^ 1074 else (2 ^ 52 + fraction) * 2 ^ exponent / 2 ^ 1075
  if x.getLsbD 63 then -magnitude else magnitude

/-- `Hreal(H, n)`, the entropy the document defines, in exact real arithmetic (R173). Values that do not occur are left out
(R178). -/
noncomputable def realEntropy (h : Histogram) (n : Word) : ℝ :=
  -((occurring h).map (fun c => (c.toNat : ℝ) / n.toNat * Real.logb 2 ((c.toNat : ℝ) / n.toNat))).sum

/-- The entropy the document defines of the bytes themselves, with no histogram: each value that occurs has its share of the buffer
as its probability (R173, R178). -/
noncomputable def bufferEntropy (bytes : List Byte) : ℝ :=
  -((List.range 256).map (fun v =>
      let share : ℝ := (bytes.count (BitVec.ofNat 8 v) : ℝ) / bytes.length
      if bytes.count (BitVec.ofNat 8 v) = 0 then 0 else share * Real.logb 2 share)).sum

/-- The counters of the histogram sum to n (R172). -/
def countsTo (h : Histogram) (n : Word) : Prop := (h.toList.map BitVec.toNat).sum = n.toNat

/-- Property E7 of R174 for a bound: ENTROPY_ABS_ERR is OPEN, so a claim that needs a bound assumes this. -/
def EntropyWithin (bound : ℝ) : Prop :=
  ∀ (h : Histogram) (n : Word), n ≠ 0#32 → countsTo h n → |binary64Value (entropyFn h n) - realEntropy h n| ≤ bound

end Sys2Proof.Safety
end

