-- ==== Sys2Proof/Certificates/Slice0/Obligations.lean ====
section
/-! DEFINITION. The statements about the model, from the numbered rules of spec/. -/

open Sys2Proof Sys2Proof.Machine Sys2Proof.Safety

/-! ## Encodings -/

/-- Decoding an encoded instruction gives it back, and so does decoding the host access that carries a transaction (R80 to R85). -/
def Obligations.EncodedInstructionsDecodeBack : Prop :=
  (∀ i : Instr, i.wf = true → decode (encode i) = .ok i) ∧
  (∀ (i : Instr) (txn : BitVec 7) (data : Word), encode i = .bus txn data →
    decodeAccess { width := 32, write := txn.getLsbD 6, offset := txn.extractLsb' 0 6, data := data } = .ok i)

/-- R84: a CMD word is legal exactly when it is one of four words, matched on all 32 bits; any other is illegal. -/
def Obligations.ExactlyFourCommandWordsAreLegal : Prop :=
  ∀ w : Word,
    (decode (.cmd w) = .ok .crc32 ↔ w = 0x00000001#32) ∧ (decode (.cmd w) = .ok .cmp ↔ w = 0x00000002#32) ∧
    (decode (.cmd w) = .ok .search ↔ w = 0x00000003#32) ∧ (decode (.cmd w) = .ok .entropy ↔ w = 0x00000004#32) ∧
    (decode (.cmd w) = .error .illegalCommand ↔
      w ≠ 0x00000001#32 ∧ w ≠ 0x00000002#32 ∧ w ≠ 0x00000003#32 ∧ w ≠ 0x00000004#32)

/-- A TXN code with OFFSET[1:0] = 00 decodes to the instruction that encodes to it; every other code is refused (R82, R85, R87). -/
def Obligations.AlignedTransactionCodesDecode : Prop :=
  ∀ (txn : BitVec 7) (data : Word),
    (txn.extractLsb' 0 2 = 0#2 → ∃ i d, decode (.bus txn data) = .ok i ∧ encode i = .bus txn d ∧ (txn.getLsbD 6 = true → d = data)) ∧
    (txn.extractLsb' 0 2 ≠ 0#2 → decode (.bus txn data) = .error .misaligned)

/-- Words written out from the tables of R83 and R85 decode to the instructions they stand for. That a TXN code stands alone in one byte,
its data word then zero, is the model's choice of layout (log 12). -/
def Obligations.WrittenOutWordsDecode : Prop :=
  decodeTableWord 32 0x00000001 = some .crc32 ∧ decodeTableWord 32 0x00000004 = some .entropy ∧
  decodeTableWord 32 0x00000011 = none ∧ decodeTableWord 8 0x08 = some .rdStatus ∧
  decodeTableWord 8 0x4C = some (.wrCmd 0#32) ∧ decodeTableWord 8 0x7C = some (.wrRsvd3C 0#32) ∧ decodeTableWord 8 0x0D = none

/-! ## The step -/

/-- A step whose next turn is a 32-bit access with a decodable TXN code is `exec` of the decoded transaction, at the state without
that turn. The list of turns is the model's own form of R65's order (log 2). -/
def Obligations.StepTakesTheDecodedTransaction : Prop :=
  ∀ (s : State) (a : Access) (i : Instr) (rest : List Turn), s.turns = .access a :: rest → s.inReset = false → a.width = 32 →
    decode (.bus (txnCode a.write a.offset) a.data) = .ok i → step s = exec i { s with turns := rest }

/-- While BUSY, the core's turn, and a step with no turn pending, is `exec` of the command whose opcode is latched (R109, R111; the
turns are log 2). -/
def Obligations.StepRunsTheLatchedCommand : Prop :=
  ∀ (s : State) (c : Command), s.status.busy = true → s.seq.op = c.op →
    (s.turns = [] → step s = exec c.toInstr s) ∧
    (∀ rest, s.turns = .core :: rest → step s = exec c.toInstr { s with turns := rest })

/-- R223: without a running command and without a transaction nothing executes: the step changes nothing. -/
def Obligations.IdleStepChangesNothing : Prop :=
  ∀ s : State, s.status.busy = false →
    (s.turns = [] → step s = .next s) ∧ (∀ rest, s.turns = .core :: rest → step s = .next { s with turns := rest })

/-- R130: an access that is not 32 bits wide, or not at a multiple of 4, is refused; every aligned 32-bit access decodes. -/
def Obligations.SubwordAccessIsRefused : Prop :=
  ∀ (s : State) (a : Access) (rest : List Turn), s.turns = .access a :: rest → s.inReset = false →
    ((a.width ≠ 32 ∨ a.offset.toNat % 4 ≠ 0) → step s = .refused .subwordAccess) ∧
    (a.width = 32 → a.offset.toNat % 4 = 0 → ∃ i, decodeAccess a = .ok i ∧ step s = exec i { s with turns := rest })

/-- R222: register transactions made while the reset input is asserted are refused, whatever the access; and no instruction that runs
changes the reset input. -/
def Obligations.AccessDuringResetIsRefused : Prop :=
  (∀ (s : State) (a : Access) (rest : List Turn), s.turns = .access a :: rest → s.inReset = true →
    step s = .refused .accessDuringReset) ∧
  (∀ (i : Instr) (s t : State), exec i s = .next t → t.inReset = s.inReset)

/-- An agent's write turn writes its byte, leaves every other byte, and changes nothing else but the record that a declared byte of the
running command was written: a byte outside its declared ranges leaves that record alone (R60, R66; the turn and the record are the
model's own, log 2). -/
def Obligations.MemoryTurnWritesOneByte : Prop :=
  ∀ (s : State) (a : Word) (v : Byte) (rest : List Turn), s.turns = .memWrite a v :: rest → s.mem.wf = true →
    ∃ t, step s = .next t ∧ (∀ b, t.mem.read b = if b = a.toNat then v else s.mem.read b) ∧ t.status = s.status ∧
      KeepsInputs { s with turns := rest, mem := t.mem } t ∧ KeepsResults s t ∧
      t.seq = { s.seq with raced := s.seq.raced || runningDeclares s a.toNat } ∧
      (s.status.busy = false → runningDeclares s a.toNat = false) ∧
      (∀ c : Command, s.status.busy = true → s.seq.op = c.op → runningDeclares s a.toNat = declares c s a.toNat)

/-! ## Reset -/

/-- R220, R221: asserting the reset input brings every register and field to its reset value, with no completion, no read
outstanding and IRQ at 0, and leaves memory alone; ID and the ROM stay the constants they are. The input is then asserted, and releasing it
changes that alone. A running command that has a fault (R194 to R196) leaves it recorded, and with none the record stays: the model's
choice (log 18). That the reset takes effect at once when the input is asserted, and holds until its release, is the model's reading: the
rules do not say when (log 14). -/
def Obligations.ResetInputResetsTheInstance : Prop :=
  (∀ (s : State) (rest : List Turn), s.turns = .resetInput true :: rest →
    ∃ t, step s = .next t ∧ ctrlWord t = 0#32 ∧ t.status.toWord = 0x00000000#32 ∧ t.aAddr = 0#32 ∧ t.aLen = 0#32 ∧ t.bAddr = 0#32 ∧
      t.bLen = 0#32 ∧ t.result0 = 0#32 ∧ t.result1 = 0#32 ∧ t.errAddr = 0#32 ∧ t.status.busy = false ∧ t.status.done = false ∧
      t.status.err = false ∧ t.seq.reads = .answered ∧ irq t = false ∧ t.mem = s.mem ∧ t.inReset = true ∧ t.turns = rest ∧
      exec .rdId t = .next { t with response := some 0x5A430007#32 } ∧
      (s.status.busy = false → t.recordedFault = s.recordedFault) ∧
      (∀ c : Command, s.status.busy = true → s.seq.op = c.op →
        ((∀ a, declares c s a = true → memIdempotent s.platform a = true ∧ memReadable s.platform a = true) → s.seq.raced = false →
          t.recordedFault = s.recordedFault) ∧
        ((∃ a, declares c s a = true ∧ (memIdempotent s.platform a = false ∨ memReadable s.platform a = false)) ∨ s.seq.raced = true →
          t.recordedFault ≠ none))) ∧
  (∀ (s : State) (rest : List Turn), s.turns = .resetInput false :: rest →
    step s = .next { s with turns := rest, inReset := false })

/-- The machine right after reset has the reset column's values (R20, R48): read back through the window. The platform, memory and
sequencer values of `State.reset` that the spec leaves open are not part of it (logs 1, 4, 6). -/
def Obligations.ResetStateReadsTheResetColumn : Prop :=
  ∀ i v, (i, v) ∈ [(Instr.rdId, 0x5A430007#32), (.rdCtrl, 0#32), (.rdStatus, 0#32), (.rdCmd, 0#32), (.rdAAddr, 0#32),
      (.rdALen, 0#32), (.rdBAddr, 0#32), (.rdBLen, 0#32), (.rdResult0, 0#32), (.rdResult1, 0#32), (.rdErrAddr, 0#32)] →
    exec i State.reset = .next { State.reset with response := some v }

/-- The invariant of a run holds after reset. -/
def Obligations.ResetMeetsTheInvariant : Prop := RunInv State.reset

/-- Every step keeps the invariant: memory canonical, STATUS one of the values of R30, a running command legal and in range, no
read outstanding when idle, and the result registers as R36 to R38 and R168 have them. -/
def Obligations.StepKeepsTheInvariant : Prop :=
  ∀ s t : State, RunInv s → step s = .next t → RunInv t

/-! ## Register transactions -/

/-- R120, R22: ID always reads 0x5A430007 and a write has no effect. -/
def Obligations.IdReadsItsConstant : Prop :=
  ∀ (s : State) (v : Word), exec .rdId s = .next { s with response := some 0x5A430007#32 } ∧ exec (.wrId v) s = .next s

/-- R121: CTRL reads as IRQ_EN zero-extended; a write sets IRQ_EN to bit 0 and nothing else, whatever BUSY is. -/
def Obligations.ControlHoldsIrqEnable : Prop :=
  ∀ (s : State) (v : Word),
    exec .rdCtrl s = .next { s with response := some (if s.irqEn then 0x00000001#32 else 0x00000000#32) } ∧
    exec (.wrCtrl v) s = .next { s with irqEn := v.getLsbD 0 }

/-- R122: a STATUS read returns BUSY, DONE, ERR, FOUND and ERRCODE in bits 0, 1, 2, 3 and 11:8 and zero elsewhere, and has no side
effect. -/
def Obligations.StatusReadsItsLayout : Prop :=
  ∀ s : State, ∃ v : Word, exec .rdStatus s = .next { s with response := some v } ∧ v.getLsbD 0 = s.status.busy ∧
    v.getLsbD 1 = s.status.done ∧ v.getLsbD 2 = s.status.err ∧ v.getLsbD 3 = s.status.found ∧ v.extractLsb' 4 4 = 0#4 ∧
    v.extractLsb' 8 4 = s.status.errcode ∧ v.extractLsb' 12 20 = 0#20

/-- R123: a STATUS write clears DONE where bit 1 is 1 and ERR where bit 2 is 1, and changes nothing else; in a state of a run it has no
effect while BUSY. -/
def Obligations.StatusWriteClearsWhereOneIsWritten : Prop :=
  ∀ (s : State) (v : Word),
    exec (.wrStatus v) s = .next { s with status :=
      { s.status with
        done := if v.getLsbD 1 then false else s.status.done
        err := if v.getLsbD 2 then false else s.status.err } } ∧
    (RunInv s → s.status.busy = true → exec (.wrStatus v) s = .next s)

/-- R125: an operand register reads as its 32-bit value, whatever BUSY is. -/
def Obligations.OperandRegistersRead : Prop :=
  ∀ s : State, exec .rdAAddr s = .next { s with response := some s.aAddr } ∧ exec .rdALen s = .next { s with response := some s.aLen } ∧
    exec .rdBAddr s = .next { s with response := some s.bAddr } ∧ exec .rdBLen s = .next { s with response := some s.bLen }

/-- R126: a write of an operand register sets all its 32 bits when BUSY = 0, and is ignored when BUSY = 1. -/
def Obligations.OperandWritesWaitForIdle : Prop :=
  ∀ (s : State) (v : Word),
    (s.status.busy = false →
      exec (.wrAAddr v) s = .next { s with aAddr := v } ∧ exec (.wrALen v) s = .next { s with aLen := v } ∧
      exec (.wrBAddr v) s = .next { s with bAddr := v } ∧ exec (.wrBLen v) s = .next { s with bLen := v }) ∧
    (s.status.busy = true →
      exec (.wrAAddr v) s = .next s ∧ exec (.wrALen v) s = .next s ∧ exec (.wrBAddr v) s = .next s ∧ exec (.wrBLen v) s = .next s)

/-- R127: RESULT0, RESULT1 and ERR_ADDR read as stored when BUSY = 0; when BUSY = 1 each read returns a free value, and the next
such read a draw of its own. The count of draws is the model's own (log 5). -/
def Obligations.ResultReadsAreDrawnWhileBusy : Prop :=
  ∀ s : State,
    (s.status.busy = false → exec .rdResult0 s = .next { s with response := some s.result0 } ∧
      exec .rdResult1 s = .next { s with response := some s.result1 } ∧ exec .rdErrAddr s = .next { s with response := some s.errAddr }) ∧
    (s.status.busy = true → ∀ i ∈ [Instr.rdResult0, .rdResult1, .rdErrAddr],
      exec i s = .next { s with response := some (Config.unspecifiedWord s.draws), draws := s.draws + 1 })

/-- R128: a write of RESULT0, RESULT1 or ERR_ADDR has no effect. -/
def Obligations.ResultWritesHaveNoEffect : Prop :=
  ∀ (s : State) (v : Word), exec (.wrResult0 v) s = .next s ∧ exec (.wrResult1 v) s = .next s ∧ exec (.wrErrAddr v) s = .next s

/-- R129: the reserved offsets read 0 and ignore writes. CMD, the other slot without storage, reads 0 too (R31, R124). -/
def Obligations.SlotsWithoutStorageReadZero : Prop :=
  ∀ (s : State) (v : Word),
    (∀ i ∈ [Instr.rdRsvd2C, .rdRsvd30, .rdRsvd34, .rdRsvd38, .rdRsvd3C, .rdCmd], exec i s = .next { s with response := some 0x00000000#32 }) ∧
    (∀ i ∈ [Instr.wrRsvd2C v, .wrRsvd30 v, .wrRsvd34 v, .wrRsvd38 v, .wrRsvd3C v], exec i s = .next s)

/-- R131: no register read changes any state of ZC-CORE: what changes is the response the host gets and the model's count of draws. -/
def Obligations.ReadsChangeNoState : Prop :=
  ∀ (i : Instr) (s : State), isRead i = true →
    ∃ v n, exec i s = .next { s with response := some v, draws := n }

/-- A transaction that runs leaves memory, the platform, the reset input, the pending turns and the sequencer's scan items as they are,
changes no operand register but the one it writes, changes CTRL only by a CTRL write, and never changes the results but by a
CMD write (R24, R39, R126, R128). That the scan items and the histogram also stay when a CMD write ends with ILLEGAL_OP or RANGE is the
model's choice (log 6). -/
def Obligations.TransactionFrame : Prop :=
  ∀ (i : Instr) (s t : State), isTransaction i = true → exec i s = .next t →
    t.mem = s.mem ∧ t.platform = s.platform ∧ t.inReset = s.inReset ∧ t.turns = s.turns ∧ t.seq.hist = s.seq.hist ∧
    t.seq.crc = s.seq.crc ∧ t.seq.idx = s.seq.idx ∧ t.seq.cand = s.seq.cand ∧
    ((∀ v, i ≠ .wrCtrl v) → t.irqEn = s.irqEn) ∧ ((∀ v, i ≠ .wrAAddr v) → t.aAddr = s.aAddr) ∧
    ((∀ v, i ≠ .wrALen v) → t.aLen = s.aLen) ∧ ((∀ v, i ≠ .wrBAddr v) → t.bAddr = s.bAddr) ∧
    ((∀ v, i ≠ .wrBLen v) → t.bLen = s.bLen) ∧
    ((∀ v, i ≠ .wrCmd v) → KeepsResults s t ∧ t.seq = s.seq ∧ t.status.busy = s.status.busy) ∧
    ((∀ v, i ≠ .wrCmd v) → (∀ v, i ≠ .wrStatus v) → t.status = s.status)

/-! ## The command request -/

/-- R101: a CMD write while BUSY = 1 changes nothing. -/
def Obligations.BusyRequestIsIgnored : Prop :=
  ∀ (s : State) (w : Word), s.status.busy = true → exec (.wrCmd w) s = .next s

/-- R105, R191: an accepted word other than the four ends at once with ILLEGAL_OP and ERR_ADDR 0, STATUS then reads 0x00000104,
and the operands' ranges play no part (R198). -/
def Obligations.IllegalWordReportsIllegalOp : Prop :=
  ∀ (s : State) (w : Word), s.status.busy = false → w ∉ [0x00000001#32, 0x00000002#32, 0x00000003#32, 0x00000004#32] →
    ∃ t, exec (.wrCmd w) s = .next t ∧ FailedWith s t 1#4 0x00000000#32 ∧ t.status.toWord = 0x00000104#32

/-- R106, R192: a legal word whose operand A, or else operand B, goes past 2^32 ends at once with RANGE and that operand's start
address, A before B; STATUS then reads 0x00000204. CMP checks buffer b with A_LEN (R107). -/
def Obligations.RangeErrorNamesTheFirstOperand : Prop :=
  ∀ (s : State) (c : Command), s.status.busy = false →
    (2 ^ 32 < s.aAddr.toNat + s.aLen.toNat →
      ∃ t, exec (.wrCmd (0#28 ++ c.op)) s = .next t ∧ FailedWith s t 2#4 s.aAddr ∧ t.status.toWord = 0x00000204#32) ∧
    (s.aAddr.toNat + s.aLen.toNat ≤ 2 ^ 32 →
      (c = .cmp ∧ 2 ^ 32 < s.bAddr.toNat + s.aLen.toNat ∨ c = .search ∧ 2 ^ 32 < s.bAddr.toNat + s.bLen.toNat) →
      ∃ t, exec (.wrCmd (0#28 ++ c.op)) s = .next t ∧ FailedWith s t 2#4 s.bAddr ∧ t.status.toWord = 0x00000204#32)

/-- R104, R108: an accepted legal word whose operands fit sets BUSY, clears DONE, ERR, FOUND and ERRCODE, latches the opcode, and
changes nothing else, whatever DONE and ERR were (R103). That no read is outstanding, no race recorded, and the scan with ENTROPY's clearing
still to come is the model's form of R108 (log 2). -/
def Obligations.AcceptedCommandStarts : Prop :=
  ∀ (s : State) (c : Command), s.status.busy = false → s.aAddr.toNat + s.aLen.toNat ≤ 2 ^ 32 →
    (c = .cmp → s.bAddr.toNat + s.aLen.toNat ≤ 2 ^ 32) → (c = .search → s.bAddr.toNat + s.bLen.toNat ≤ 2 ^ 32) →
    exec (.wrCmd (0#28 ++ c.op)) s = .next { s with
      status := { busy := true, done := false, err := false, found := false, errcode := 0#4 }
      seq := { s.seq with op := c.op, reads := .answered, raced := false } }

/-! ## The four commands -/

/-- R107: the operands a command uses and their order; a register it does not use has no effect on what it does. -/
def Obligations.UnusedOperandsHaveNoEffect : Prop :=
  ∀ (s : State) (v w : Word),
    usedOperands .crc32 s = [⟨s.aAddr, s.aLen⟩] ∧ usedOperands .cmp s = [⟨s.aAddr, s.aLen⟩, ⟨s.bAddr, s.aLen⟩] ∧
    usedOperands .search s = [⟨s.aAddr, s.aLen⟩, ⟨s.bAddr, s.bLen⟩] ∧ usedOperands .entropy s = [⟨s.aAddr, s.aLen⟩] ∧
    exec .crc32 { s with bAddr := v, bLen := w } = mapNext (fun t => { t with bAddr := v, bLen := w }) (exec .crc32 s) ∧
    exec .entropy { s with bAddr := v, bLen := w } = mapNext (fun t => { t with bAddr := v, bLen := w }) (exec .entropy s) ∧
    exec .cmp { s with bLen := w } = mapNext (fun t => { t with bLen := w }) (exec .cmp s)

/-- R142, R143: CRC32 completes with the complement of the register after the table-driven update of every byte in index order from
0xFFFFFFFF, RESULT1 = 0 and FOUND = 0. -/
def Obligations.ChecksumIsTheTableDrivenCrc : Prop :=
  ∀ s : State, runs .crc32 s = true →
    ∃ t, exec .crc32 s = .next t ∧ CompletedWith s t
      (~~~ (List.range s.aLen.toNat).foldl
        (fun crc i => crcEntry ((crc ^^^ (s.mem.read (s.aAddr.toNat + i)).setWidth 32) &&& 0xFF#32).toNat ^^^ (crc >>> 8))
        0xFFFFFFFF#32)
      0x00000000#32 false

/-- R141: every ROM entry is what the 8 rounds of `gen(n)` make of its index. -/
def Obligations.RomHoldsTheGeneratedTable : Prop :=
  crcRom.length = 256 ∧ ∀ n < 256, crcEntry n = crcRounds8 (BitVec.ofNat 32 n)

/-- R147: one table-driven update is the 8-round bitwise loop on the full 32-bit value, for every register value and byte. -/
def Obligations.TableStepIsTheBitwiseStep : Prop :=
  ∀ (crc : Word) (b : Byte), crcStep crc b = crcRounds8 (crc ^^^ b.setWidth 32)

/-- CRC32's result is the checksum by the bitwise form, without the table, for every buffer it runs on (R146, R147). -/
def Obligations.ChecksumIsTheBitwiseChecksum : Prop :=
  ∀ s : State, runs .crc32 s = true →
    ∃ t, exec .crc32 s = .next t ∧ t.result0 = bitwiseChecksum (buffer s s.aAddr s.aLen)

/-- R151: CMP's result is that of the scan from index 0: less or greater by unsigned byte value at the first difference below A_LEN,
equal when there is none; RESULT1 and FOUND are 0. -/
def Obligations.CompareFollowsTheFirstDifference : Prop :=
  ∀ s : State, runs .cmp s = true → ∃ t, exec .cmp s = .next t ∧ CompletedWith s t t.result0 0x00000000#32 false ∧
    (t.result0 = 0x00000000#32 ↔
      ∀ i < s.aLen.toNat, s.mem.read (s.aAddr.toNat + i) = s.mem.read (s.bAddr.toNat + i)) ∧
    (t.result0 = 0xFFFFFFFF#32 ↔ ∃ i < s.aLen.toNat,
      (∀ j < i, s.mem.read (s.aAddr.toNat + j) = s.mem.read (s.bAddr.toNat + j)) ∧
      (s.mem.read (s.aAddr.toNat + i)).toNat < (s.mem.read (s.bAddr.toNat + i)).toNat) ∧
    (t.result0 = 0x00000001#32 ↔ ∃ i < s.aLen.toNat,
      (∀ j < i, s.mem.read (s.aAddr.toNat + j) = s.mem.read (s.bAddr.toNat + j)) ∧
      (s.mem.read (s.bAddr.toNat + i)).toNat < (s.mem.read (s.aAddr.toNat + i)).toNat)

/-- R153: the same bytes on both sides compare equal, and swapping A_ADDR and B_ADDR swaps less and greater and keeps equal. -/
def Obligations.CompareIsReflexiveAndAntisymmetric : Prop :=
  ∀ s : State, runs .cmp s = true →
    ∃ t u, exec .cmp s = .next t ∧ exec .cmp { s with aAddr := s.bAddr, bAddr := s.aAddr } = .next u ∧
      (buffer s s.aAddr s.aLen = buffer s s.bAddr s.aLen → t.result0 = 0x00000000#32) ∧
      (t.result0 = 0xFFFFFFFF#32 ↔ u.result0 = 0x00000001#32) ∧ (t.result0 = 0x00000001#32 ↔ u.result0 = 0xFFFFFFFF#32) ∧
      (t.result0 = 0x00000000#32 ↔ u.result0 = 0x00000000#32)

/-- CMP orders two buffers as unsigned numbers packed with the lowest address most significant: the word-grouped datapath that R52
and R156 permit, over the whole length. -/
def Obligations.CompareAgreesWithBigEndianWords : Prop :=
  ∀ s : State, runs .cmp s = true →
    ∃ t, exec .cmp s = .next t ∧
      (t.result0 = 0xFFFFFFFF#32 ↔ packBigEndian (buffer s s.aAddr s.aLen) < packBigEndian (buffer s s.bAddr s.aLen)) ∧
      (t.result0 = 0x00000001#32 ↔ packBigEndian (buffer s s.bAddr s.aLen) < packBigEndian (buffer s s.aAddr s.aLen))

/-- R161 to R164: SEARCH completes with the smallest offset at which the needle occurs and FOUND = 1, or with 0xFFFFFFFF and FOUND = 0
when it occurs nowhere, which is so for an empty needle and for one longer than the haystack; RESULT1 is 0. -/
def Obligations.SearchFindsTheLeftmostMatch : Prop :=
  ∀ s : State, runs .search s = true →
    (∀ i, NeedleAt s i → (∀ j < i, ¬ NeedleAt s j) →
      ∃ t, exec .search s = .next t ∧ CompletedWith s t (BitVec.ofNat 32 i) 0x00000000#32 true ∧ t.result0.toNat = i) ∧
    ((∀ i, ¬ NeedleAt s i) →
      ∃ t, exec .search s = .next t ∧ CompletedWith s t 0xFFFFFFFF#32 0x00000000#32 false) ∧
    ((s.bLen = 0#32 ∨ s.aLen.toNat < s.bLen.toNat) → ∀ i, ¬ NeedleAt s i)

/-- R165: with equal lengths of at least 1, SEARCH finds the needle, at 0, exactly when CMP of the same addresses and length gives
equal. -/
def Obligations.EqualLengthSearchAgreesWithCompare : Prop :=
  ∀ s : State, runs .search s = true → s.aLen = s.bLen → s.bLen ≠ 0#32 →
    ∃ t u, exec .search s = .next t ∧ exec .cmp s = .next u ∧
      (t.status.found = true ↔ u.result0 = 0x00000000#32) ∧ (t.status.found = true → t.result0 = 0#32)

/-- R167: a needle that is the haystack's own bytes from offset k is found, at an offset of at most k. -/
def Obligations.OverlappingNeedleIsFound : Prop :=
  ∀ (s : State) (k : Nat), runs .search s = true → s.bLen ≠ 0#32 → s.bAddr.toNat = s.aAddr.toNat + k →
    k + s.bLen.toNat ≤ s.aLen.toNat →
    ∃ t, exec .search s = .next t ∧ t.status.found = true ∧ t.result0.toNat ≤ k

/-- R168: a found offset is at most A_LEN - B_LEN, and so is never the sentinel. -/
def Obligations.SentinelIsNoOffset : Prop :=
  ∀ s t : State, runs .search s = true → exec .search s = .next t → t.status.found = true →
    t.result0.toNat + s.bLen.toNat ≤ s.aLen.toNat ∧ t.result0 ≠ 0xFFFFFFFF#32

/-- R172: after ENTROPY each counter holds the number of bytes of its value in the buffer, and the counters sum to n. That they
keep these values after the completion is the model's choice (log 6). -/
def Obligations.HistogramCountsTheBytes : Prop :=
  ∀ s : State, runs .entropy s = true → ∃ t, exec .entropy s = .next t ∧
    (∀ v : Byte, (t.seq.hist[v.toNat]'v.isLt).toNat = (buffer s s.aAddr s.aLen).count v) ∧ countsTo t.seq.hist s.aLen

/-- R171, R182: ENTROPY completes with the low and high words of a binary64: +0.0 for an empty buffer, else ENTROPY_FN (the
model's form of it is log 7) of the histogram and the length; FOUND = 0. -/
def Obligations.EntropyIsItsFunctionOfTheHistogram : Prop :=
  ∀ s : State, runs .entropy s = true → ∃ (t : State) (e : Binary64), exec .entropy s = .next t ∧
    CompletedWith s t (e.extractLsb' 0 32) (e.extractLsb' 32 32) false ∧ t.result1 ++ t.result0 = e ∧
    (s.aLen = 0#32 → e = 0x0000000000000000#64) ∧
    (s.aLen ≠ 0#32 → e = entropyFn (histogram (buffer s s.aAddr s.aLen)) s.aLen)

/-- Properties E2, E4 and E5 of R174, for every value of the free constants (log 7): with 2^j equally frequent values the result is exactly
the binary64 j. The bits of 4.0, 5.0 and 6.0 are those of the presumed layout (log 16). -/
def Obligations.EqualFrequenciesGiveTheExactEntropy : Prop :=
  ∀ (h : Histogram) (n c : Word) (j : Nat) (e : Binary64),
    [0x0000000000000000#64, 0x3FF0000000000000#64, 0x4000000000000000#64, 0x4008000000000000#64, 0x4010000000000000#64,
      0x4014000000000000#64, 0x4018000000000000#64, 0x401C000000000000#64, 0x4020000000000000#64][j]? = some e →
    (occurring h).length = 2 ^ j → (∀ x ∈ h.toList, x = 0#32 ∨ x = c) → entropyFn h n = e

/-- Property E3 of R174, for every value of the free constants (log 7): the result is a finite binary64 in [+0.0, 8.0], never -0.0. The real
value of the bits is that of the presumed layout (log 16). -/
def Obligations.EntropyStaysInRange : Prop :=
  ∀ (h : Histogram) (n : Word), (entropyFn h n).getLsbD 63 = false ∧ (entropyFn h n).toNat ≤ 0x4020000000000000 ∧
    0 ≤ binary64Value (entropyFn h n) ∧ binary64Value (entropyFn h n) ≤ 8

/-- Property E6 of R174, for every value of the free constants (log 7): with more equally frequent values the result is no smaller. The
results are compared by their bits, whose order is presumed to be that of their values (log 16). -/
def Obligations.EntropyGrowsWithEquallyFrequentValues : Prop :=
  ∀ (h h' : Histogram) (n n' c c' : Word), (∀ x ∈ h.toList, x = 0#32 ∨ x = c) → (∀ x ∈ h'.toList, x = 0#32 ∨ x = c') →
    (occurring h).length < (occurring h').length → entropyFn h n ≤ entropyFn h' n'

/-- Property E7 of R174, in the form a claim uses it: for any bound that ENTROPY_FN keeps to, the result words of ENTROPY, put together, are
a binary64 within that bound of the entropy of the buffer's bytes. The bound is OPEN, and so is assumed (log 7); the real value of the
bits is that of the presumed layout (log 16). -/
def Obligations.EntropyResultKeepsTheAssumedBound : Prop :=
  ∀ (bound : ℝ) (s : State), EntropyWithin bound → runs .entropy s = true → s.aLen ≠ 0#32 →
    ∃ t, exec .entropy s = .next t ∧ |binary64Value (t.result1 ++ t.result0) - bufferEntropy (buffer s s.aAddr s.aLen)| ≤ bound

/-- R179: ENTROPY's result is the same, bit for bit, for every permutation of the buffer's bytes. -/
def Obligations.EntropyIgnoresByteOrder : Prop :=
  ∀ s s' : State, runs .entropy s = true → runs .entropy s' = true →
    (buffer s s.aAddr s.aLen).Perm (buffer s' s'.aAddr s'.aLen) →
    ∃ t t', exec .entropy s = .next t ∧ exec .entropy s' = .next t' ∧ t.result0 = t'.result0 ∧ t.result1 = t'.result1

/-- R10, R49: a command's results depend on its used operands and the bytes of its declared ranges and on nothing else: not on the
histogram, the other registers, earlier results or the rest of memory. -/
def Obligations.ResultsDependOnlyOnOperandsAndBytes : Prop :=
  ∀ (c : Command) (s s' : State), runs c s = true → runs c s' = true → usedOperands c s = usedOperands c s' →
    (∀ a, declares c s a = true → s.mem.read a = s'.mem.read a) →
    ∃ t t', exec c.toInstr s = .next t ∧ exec c.toInstr s' = .next t' ∧ t.result0 = t'.result0 ∧ t.result1 = t'.result1 ∧
      t.errAddr = t'.errAddr ∧ t.status = t'.status

/-- A command's next state keeps CTRL, the operand registers, memory and what the host holds, and the opcode; of the other scan items
CRC32 writes idx and crc, CMP idx, SEARCH idx and cand, ENTROPY idx and the histogram. The frame of R112 and R113; what a scan leaves
in the sequencer, and that an error leaves it as it was, is the model's choice (log 6). -/
def Obligations.CommandFrame : Prop :=
  ∀ (c : Command) (s t : State), exec c.toInstr s = .next t →
    KeepsInputs s t ∧ t.seq.op = s.seq.op ∧ (c ≠ .crc32 → t.seq.crc = s.seq.crc) ∧ (c ≠ .search → t.seq.cand = s.seq.cand) ∧
    (c ≠ .entropy → t.seq.hist = s.seq.hist)

/-! ## Errors and faults -/

/-- When the memory answers a read of an unreadable declared byte with a bus error, the running command ends with BUS, ERR_ADDR that
byte's address, and STATUS 0x00000304; at any other address, or with no command running, a bus error turn changes nothing. The
completion is one of the two outcomes of R110 and R193. R194 has a model record a fault in this case: that the model takes this outcome
at the memory's turn and records the fault in State beside it is the model's choice (log 10; the turn is log 2), and so is that the sequencer's items stay as they were (log 6). The premises exclude the
faults of R195 and R196 and a read without an answer. -/
def Obligations.ReportedBusErrorCompletes : Prop :=
  ∀ (s : State) (a : Word) (rest : List Turn), s.turns = .busError a :: rest →
    (∀ c : Command, s.status.busy = true → s.seq.op = c.op → declaredAll c s (memIdempotent s.platform) = true →
      s.seq.raced = false → s.seq.reads = .answered → declares c s a.toNat = true → memReadable s.platform a.toNat = false →
      ∃ t, step s = .next t ∧
        FailedWith { s with turns := rest, recordedFault := some .unreadableDeclaredByte } t 3#4 a ∧ t.status.toWord = 0x00000304#32 ∧
        t.seq = s.seq) ∧
    (s.status.busy = false → step s = .next { s with turns := rest }) ∧
    (∀ c : Command, s.status.busy = true → s.seq.op = c.op → (declares c s a.toNat = false ∨ memReadable s.platform a.toNat = true) →
      step s = .next { s with turns := rest })

/-- R194: the run of a command with an unreadable declared byte is a fault, whatever reads were answered. Its premises exclude the faults of
R195 and R196, which the model names first (log 11). A memory's bus error turn ends the command before its run (log 10), and the fault
of a command that reset abandons is recorded at the reset (log 18). -/
def Obligations.UnreadableDeclaredByteFaults : Prop :=
  ∀ (c : Command) (s : State) (a : Nat), rangeFailure c s = none → declaredAll c s (memIdempotent s.platform) = true →
    s.seq.raced = false → declares c s a = true → memReadable s.platform a = false →
    exec c.toInstr s = .fault .unreadableDeclaredByte

/-- R195: when an agent writes a declared byte of the running command, the completion that follows is a fault. That the fault comes at the
completion and not at the write is the model's choice (log 2), and so is that it is named ahead of an unreadable byte and of a read
without an answer (log 11). A command that reset abandons first has its fault recorded at the reset (log 18). -/
def Obligations.DeclaredByteWrittenWhileBusyFaults : Prop :=
  ∀ (c : Command) (s : State) (a : Word) (v : Byte) (rest : List Turn), s.turns = .memWrite a v :: .core :: rest →
    s.status.busy = true → s.seq.op = c.op → rangeFailure c s = none → declaredAll c s (memIdempotent s.platform) = true →
    declares c s a.toNat = true →
    ∃ t, step s = .next t ∧ step t = .fault .declaredByteWritten

/-- R196, R46: the run of a command with a declared byte in side-effecting memory, the register window among it, is a fault. That the
fault comes when the command ends, and not at its start, is the model's choice (log 18), and so is that it is named ahead of a race, an
unreadable byte and a read without an answer (log 11). -/
def Obligations.SideEffectingDeclaredByteFaults : Prop :=
  ∀ (c : Command) (s : State) (a : Nat), rangeFailure c s = none → declares c s a = true →
    (memIdempotent s.platform a = false ∨ s.platform.zcBase.toNat ≤ a ∧ a < s.platform.zcBase.toNat + 0x40) →
    exec c.toInstr s = .fault .sideEffectingMemory

/-- A read that never gets a response leaves the command running: the memory's turn records a read of a declared byte of the running
command and nothing else, and at any other address changes nothing; with every declared byte readable, the core's turn then changes
nothing and BUSY stays 1 (R114, R232). The turn, the record and the step with no turn pending are the model's own (log 2), and that the
scan items and the histogram keep what they held, uncleared for an ENTROPY, is the model's choice (log 6). -/
def Obligations.UnansweredReadLeavesTheCommandRunning : Prop :=
  (∀ (s : State) (a : Word) (rest : List Turn), s.turns = .noAnswer a :: rest →
    (s.status.busy = false → step s = .next { s with turns := rest }) ∧
    (∀ c : Command, s.status.busy = true → s.seq.op = c.op →
      (declares c s a.toNat = true → step s = .next { s with turns := rest, seq := { s.seq with reads := .unanswered a } }) ∧
      (declares c s a.toNat = false → step s = .next { s with turns := rest }))) ∧
  (∀ (c : Command) (s : State) (a : Word), (s.turns = [] ∨ s.turns.head? = some .core) → s.status.busy = true → s.seq.op = c.op →
    rangeFailure c s = none → declaredAll c s (memIdempotent s.platform) = true → s.seq.raced = false → declaredAll c s (memReadable s.platform) = true →
    s.seq.reads = .unanswered a → declares c s a.toNat = true → step s = .next { s with turns := s.turns.tail })

/-- R58: the core never writes memory: no command, completion, error, transaction or reset changes a byte; only an agent's write
does. -/
def Obligations.OnlyAgentsWriteMemory : Prop :=
  (∀ (i : Instr) (s t : State), exec i s = .next t → t.mem = s.mem) ∧
  (∀ s t : State, step s = .next t → (∀ a v, s.turns.head? ≠ some (.memWrite a v)) → t.mem = s.mem)

/-! ## The whole machine -/

/-- R115: the results of a completion stay until the next CMD write or reset: any other step from an idle state keeps RESULT0, RESULT1,
ERR_ADDR, FOUND and ERRCODE. -/
def Obligations.ResultsStayUntilTheNextRequest : Prop :=
  ∀ s t : State, s.status.busy = false → step s = .next t → s.turns.head? ≠ some (.resetInput true) →
    (∀ a v, s.turns.head? = some (.access a) → decodeAccess a ≠ .ok (.wrCmd v)) →
    KeepsResults s t ∧ t.status.busy = false

/-- BUSY becomes 1 only by a CMD write of a legal word whose operands fit, and returns to 0 only by the core's turn, which is the
completion, a bus error's turn, or a reset (R25, R101, R207; the turns are log 2). -/
def Obligations.BusyChangesOnlyByRequestCompletionOrReset : Prop :=
  (∀ s t : State, s.status.busy = false → step s = .next t → t.status.busy = true →
    ∃ (a : Access) (c : Command), s.turns.head? = some (.access a) ∧ decodeAccess a = .ok (.wrCmd (0#28 ++ c.op)) ∧
      rangeFailure c s = none ∧ t.seq.op = c.op) ∧
  (∀ s t : State, s.status.busy = true → step s = .next t → t.status.busy = false →
    s.turns = [] ∨ s.turns.head? = some .core ∨ s.turns.head? = some (.resetInput true) ∨
    ∃ (c : Command) (a : Word), s.turns.head? = some (.busError a) ∧ s.seq.op = c.op ∧ declares c s a.toNat = true ∧
      memReadable s.platform a.toNat = false)

/-- R111: a completion may fall before or after any host transaction: no transaction made while BUSY changes what the running
command ends with. Only CTRL, the host's response and the model's count of draws can differ. -/
def Obligations.TransactionsDoNotDisturbTheRunningCommand : Prop :=
  ∀ (i : Instr) (c : Command) (s t : State), RunInv s → s.status.busy = true → isTransaction i = true → exec i s = .next t →
    exec c.toInstr t = mapNext (fun u => { u with irqEn := t.irqEn, response := t.response, draws := t.draws }) (exec c.toInstr s)

/-- R200, R201: IRQ is 0 while IRQ_EN is 0, and in a state of a run it is 0 while a command runs. With IRQ_EN = 1 it is raised by an
immediate error as the CMD write takes effect, and cleared by a CMD write that starts a command; it is raised by every completion of a
running command, BUS among them; an acknowledgement of both bits clears it; and writing IRQ_EN = 0 masks it and leaves STATUS alone,
so that writing 1 again raises it when DONE or ERR is set. -/
def Obligations.InterruptFollowsCompletion : Prop :=
  (∀ s : State, s.irqEn = false → irq s = false) ∧
  (∀ s : State, RunInv s → s.status.busy = true → irq s = false) ∧
  (∀ (s : State) (w : Word), s.irqEn = true → s.status.busy = false → ∃ t, exec (.wrCmd w) s = .next t ∧ irq t = !t.status.busy) ∧
  (∀ (s : State) (c : Command), s.irqEn = true → runs c s = true → ∃ t, exec c.toInstr s = .next t ∧ irq t = true) ∧
  (∀ s t : State, s.irqEn = true → s.status.busy = true → step s = .next t → t.status.busy = false →
    s.turns.head? ≠ some (.resetInput true) → irq t = true) ∧
  (∀ s : State, ∃ t, exec (.wrStatus 0x00000006#32) s = .next t ∧ irq t = false) ∧
  (∀ s : State, ∃ t u, exec (.wrCtrl 0x00000000#32) s = .next t ∧ irq t = false ∧ t.status = s.status ∧
    exec (.wrCtrl 0x00000001#32) t = .next u ∧ u.status = s.status ∧ irq u = (s.status.done || s.status.err))
end

