-- ==== Sys2Proof/Laws/State.lean ====
section
/-! SUPPORT. One lemma per field for each update of the state, true by unfolding, so that no later proof unfolds a record. -/

namespace Sys2Proof.Machine

@[simp] theorem respond_irqEn (v : Word) (s : State) : (respond v s).irqEn = s.irqEn := rfl
@[simp] theorem respond_status (v : Word) (s : State) : (respond v s).status = s.status := rfl
@[simp] theorem respond_aAddr (v : Word) (s : State) : (respond v s).aAddr = s.aAddr := rfl
@[simp] theorem respond_aLen (v : Word) (s : State) : (respond v s).aLen = s.aLen := rfl
@[simp] theorem respond_bAddr (v : Word) (s : State) : (respond v s).bAddr = s.bAddr := rfl
@[simp] theorem respond_bLen (v : Word) (s : State) : (respond v s).bLen = s.bLen := rfl
@[simp] theorem respond_result0 (v : Word) (s : State) : (respond v s).result0 = s.result0 := rfl
@[simp] theorem respond_result1 (v : Word) (s : State) : (respond v s).result1 = s.result1 := rfl
@[simp] theorem respond_errAddr (v : Word) (s : State) : (respond v s).errAddr = s.errAddr := rfl
@[simp] theorem respond_seq (v : Word) (s : State) : (respond v s).seq = s.seq := rfl
@[simp] theorem respond_mem (v : Word) (s : State) : (respond v s).mem = s.mem := rfl
@[simp] theorem respond_platform (v : Word) (s : State) : (respond v s).platform = s.platform := rfl
@[simp] theorem respond_inReset (v : Word) (s : State) : (respond v s).inReset = s.inReset := rfl
@[simp] theorem respond_turns (v : Word) (s : State) : (respond v s).turns = s.turns := rfl
@[simp] theorem respond_response (v : Word) (s : State) : (respond v s).response = some v := rfl
@[simp] theorem respond_draws (v : Word) (s : State) : (respond v s).draws = s.draws := rfl
@[simp] theorem respond_recordedFault (v : Word) (s : State) : (respond v s).recordedFault = s.recordedFault := rfl

@[simp] theorem completeOk_irqEn (r0 r1 : Word) (found : Bool) (s : State) : (completeOk r0 r1 found s).irqEn = s.irqEn := rfl
@[simp] theorem completeOk_status (r0 r1 : Word) (found : Bool) (s : State) : (completeOk r0 r1 found s).status = Status.completedOk found := rfl
@[simp] theorem completeOk_aAddr (r0 r1 : Word) (found : Bool) (s : State) : (completeOk r0 r1 found s).aAddr = s.aAddr := rfl
@[simp] theorem completeOk_aLen (r0 r1 : Word) (found : Bool) (s : State) : (completeOk r0 r1 found s).aLen = s.aLen := rfl
@[simp] theorem completeOk_bAddr (r0 r1 : Word) (found : Bool) (s : State) : (completeOk r0 r1 found s).bAddr = s.bAddr := rfl
@[simp] theorem completeOk_bLen (r0 r1 : Word) (found : Bool) (s : State) : (completeOk r0 r1 found s).bLen = s.bLen := rfl
@[simp] theorem completeOk_result0 (r0 r1 : Word) (found : Bool) (s : State) : (completeOk r0 r1 found s).result0 = r0 := rfl
@[simp] theorem completeOk_result1 (r0 r1 : Word) (found : Bool) (s : State) : (completeOk r0 r1 found s).result1 = r1 := rfl
@[simp] theorem completeOk_errAddr (r0 r1 : Word) (found : Bool) (s : State) : (completeOk r0 r1 found s).errAddr = 0#32 := rfl
@[simp] theorem completeOk_seq (r0 r1 : Word) (found : Bool) (s : State) : (completeOk r0 r1 found s).seq = s.seq.settled := rfl
@[simp] theorem completeOk_mem (r0 r1 : Word) (found : Bool) (s : State) : (completeOk r0 r1 found s).mem = s.mem := rfl
@[simp] theorem completeOk_platform (r0 r1 : Word) (found : Bool) (s : State) : (completeOk r0 r1 found s).platform = s.platform := rfl
@[simp] theorem completeOk_inReset (r0 r1 : Word) (found : Bool) (s : State) : (completeOk r0 r1 found s).inReset = s.inReset := rfl
@[simp] theorem completeOk_turns (r0 r1 : Word) (found : Bool) (s : State) : (completeOk r0 r1 found s).turns = s.turns := rfl
@[simp] theorem completeOk_response (r0 r1 : Word) (found : Bool) (s : State) : (completeOk r0 r1 found s).response = s.response := rfl
@[simp] theorem completeOk_draws (r0 r1 : Word) (found : Bool) (s : State) : (completeOk r0 r1 found s).draws = s.draws := rfl
@[simp] theorem completeOk_recordedFault (r0 r1 : Word) (found : Bool) (s : State) : (completeOk r0 r1 found s).recordedFault = s.recordedFault := rfl

@[simp] theorem completeErr_irqEn (code : BitVec 4) (addr : Word) (s : State) : (completeErr code addr s).irqEn = s.irqEn := rfl
@[simp] theorem completeErr_status (code : BitVec 4) (addr : Word) (s : State) : (completeErr code addr s).status = Status.completedErr code := rfl
@[simp] theorem completeErr_aAddr (code : BitVec 4) (addr : Word) (s : State) : (completeErr code addr s).aAddr = s.aAddr := rfl
@[simp] theorem completeErr_aLen (code : BitVec 4) (addr : Word) (s : State) : (completeErr code addr s).aLen = s.aLen := rfl
@[simp] theorem completeErr_bAddr (code : BitVec 4) (addr : Word) (s : State) : (completeErr code addr s).bAddr = s.bAddr := rfl
@[simp] theorem completeErr_bLen (code : BitVec 4) (addr : Word) (s : State) : (completeErr code addr s).bLen = s.bLen := rfl
@[simp] theorem completeErr_result0 (code : BitVec 4) (addr : Word) (s : State) : (completeErr code addr s).result0 = 0#32 := rfl
@[simp] theorem completeErr_result1 (code : BitVec 4) (addr : Word) (s : State) : (completeErr code addr s).result1 = 0#32 := rfl
@[simp] theorem completeErr_errAddr (code : BitVec 4) (addr : Word) (s : State) : (completeErr code addr s).errAddr = addr := rfl
@[simp] theorem completeErr_seq (code : BitVec 4) (addr : Word) (s : State) : (completeErr code addr s).seq = s.seq.settled := rfl
@[simp] theorem completeErr_mem (code : BitVec 4) (addr : Word) (s : State) : (completeErr code addr s).mem = s.mem := rfl
@[simp] theorem completeErr_platform (code : BitVec 4) (addr : Word) (s : State) : (completeErr code addr s).platform = s.platform := rfl
@[simp] theorem completeErr_inReset (code : BitVec 4) (addr : Word) (s : State) : (completeErr code addr s).inReset = s.inReset := rfl
@[simp] theorem completeErr_turns (code : BitVec 4) (addr : Word) (s : State) : (completeErr code addr s).turns = s.turns := rfl
@[simp] theorem completeErr_response (code : BitVec 4) (addr : Word) (s : State) : (completeErr code addr s).response = s.response := rfl
@[simp] theorem completeErr_draws (code : BitVec 4) (addr : Word) (s : State) : (completeErr code addr s).draws = s.draws := rfl
@[simp] theorem completeErr_recordedFault (code : BitVec 4) (addr : Word) (s : State) : (completeErr code addr s).recordedFault = s.recordedFault := rfl

@[simp] theorem startCommand_irqEn (c : Command) (s : State) : (startCommand c s).irqEn = s.irqEn := rfl
@[simp] theorem startCommand_status (c : Command) (s : State) : (startCommand c s).status = { s.status.accept with busy := true } := rfl
@[simp] theorem startCommand_aAddr (c : Command) (s : State) : (startCommand c s).aAddr = s.aAddr := rfl
@[simp] theorem startCommand_aLen (c : Command) (s : State) : (startCommand c s).aLen = s.aLen := rfl
@[simp] theorem startCommand_bAddr (c : Command) (s : State) : (startCommand c s).bAddr = s.bAddr := rfl
@[simp] theorem startCommand_bLen (c : Command) (s : State) : (startCommand c s).bLen = s.bLen := rfl
@[simp] theorem startCommand_result0 (c : Command) (s : State) : (startCommand c s).result0 = s.result0 := rfl
@[simp] theorem startCommand_result1 (c : Command) (s : State) : (startCommand c s).result1 = s.result1 := rfl
@[simp] theorem startCommand_errAddr (c : Command) (s : State) : (startCommand c s).errAddr = s.errAddr := rfl
@[simp] theorem startCommand_seq (c : Command) (s : State) : (startCommand c s).seq = { s.seq.settled with op := c.op } := rfl
@[simp] theorem startCommand_mem (c : Command) (s : State) : (startCommand c s).mem = s.mem := rfl
@[simp] theorem startCommand_platform (c : Command) (s : State) : (startCommand c s).platform = s.platform := rfl
@[simp] theorem startCommand_inReset (c : Command) (s : State) : (startCommand c s).inReset = s.inReset := rfl
@[simp] theorem startCommand_turns (c : Command) (s : State) : (startCommand c s).turns = s.turns := rfl
@[simp] theorem startCommand_response (c : Command) (s : State) : (startCommand c s).response = s.response := rfl
@[simp] theorem startCommand_draws (c : Command) (s : State) : (startCommand c s).draws = s.draws := rfl
@[simp] theorem startCommand_recordedFault (c : Command) (s : State) : (startCommand c s).recordedFault = s.recordedFault := rfl

@[simp] theorem finish_irqEn (k : Completion) (s : State) : (finish k s).irqEn = s.irqEn := rfl
@[simp] theorem finish_status (k : Completion) (s : State) : (finish k s).status = Status.completedOk k.found := rfl
@[simp] theorem finish_aAddr (k : Completion) (s : State) : (finish k s).aAddr = s.aAddr := rfl
@[simp] theorem finish_aLen (k : Completion) (s : State) : (finish k s).aLen = s.aLen := rfl
@[simp] theorem finish_bAddr (k : Completion) (s : State) : (finish k s).bAddr = s.bAddr := rfl
@[simp] theorem finish_bLen (k : Completion) (s : State) : (finish k s).bLen = s.bLen := rfl
@[simp] theorem finish_result0 (k : Completion) (s : State) : (finish k s).result0 = k.r0 := rfl
@[simp] theorem finish_result1 (k : Completion) (s : State) : (finish k s).result1 = k.r1 := rfl
@[simp] theorem finish_errAddr (k : Completion) (s : State) : (finish k s).errAddr = 0#32 := rfl
@[simp] theorem finish_seq (k : Completion) (s : State) : (finish k s).seq = k.seq.settled := rfl
@[simp] theorem finish_mem (k : Completion) (s : State) : (finish k s).mem = s.mem := rfl
@[simp] theorem finish_platform (k : Completion) (s : State) : (finish k s).platform = s.platform := rfl
@[simp] theorem finish_inReset (k : Completion) (s : State) : (finish k s).inReset = s.inReset := rfl
@[simp] theorem finish_turns (k : Completion) (s : State) : (finish k s).turns = s.turns := rfl
@[simp] theorem finish_response (k : Completion) (s : State) : (finish k s).response = s.response := rfl
@[simp] theorem finish_draws (k : Completion) (s : State) : (finish k s).draws = s.draws := rfl
@[simp] theorem finish_recordedFault (k : Completion) (s : State) : (finish k s).recordedFault = s.recordedFault := rfl

@[simp] theorem resetInstance_irqEn (s : State) : (resetInstance s).irqEn = false := rfl
@[simp] theorem resetInstance_status (s : State) : (resetInstance s).status = Status.reset := rfl
@[simp] theorem resetInstance_aAddr (s : State) : (resetInstance s).aAddr = 0#32 := rfl
@[simp] theorem resetInstance_aLen (s : State) : (resetInstance s).aLen = 0#32 := rfl
@[simp] theorem resetInstance_bAddr (s : State) : (resetInstance s).bAddr = 0#32 := rfl
@[simp] theorem resetInstance_bLen (s : State) : (resetInstance s).bLen = 0#32 := rfl
@[simp] theorem resetInstance_result0 (s : State) : (resetInstance s).result0 = 0#32 := rfl
@[simp] theorem resetInstance_result1 (s : State) : (resetInstance s).result1 = 0#32 := rfl
@[simp] theorem resetInstance_errAddr (s : State) : (resetInstance s).errAddr = 0#32 := rfl
@[simp] theorem resetInstance_seq (s : State) : (resetInstance s).seq = { Sequencer.reset with hist := Config.unspecifiedHistogram s.draws } := rfl
@[simp] theorem resetInstance_mem (s : State) : (resetInstance s).mem = s.mem := rfl
@[simp] theorem resetInstance_platform (s : State) : (resetInstance s).platform = s.platform := rfl
@[simp] theorem resetInstance_inReset (s : State) : (resetInstance s).inReset = s.inReset := rfl
@[simp] theorem resetInstance_turns (s : State) : (resetInstance s).turns = s.turns := rfl
@[simp] theorem resetInstance_response (s : State) : (resetInstance s).response = s.response := rfl
@[simp] theorem resetInstance_draws (s : State) : (resetInstance s).draws = s.draws + 1 := rfl
@[simp] theorem resetInstance_recordedFault (s : State) : (resetInstance s).recordedFault = s.recordedFault := rfl

@[simp] theorem takeMemWrite_irqEn (a : Word) (v : Byte) (s : State) : (takeMemWrite a v s).irqEn = s.irqEn := rfl
@[simp] theorem takeMemWrite_status (a : Word) (v : Byte) (s : State) : (takeMemWrite a v s).status = s.status := rfl
@[simp] theorem takeMemWrite_aAddr (a : Word) (v : Byte) (s : State) : (takeMemWrite a v s).aAddr = s.aAddr := rfl
@[simp] theorem takeMemWrite_aLen (a : Word) (v : Byte) (s : State) : (takeMemWrite a v s).aLen = s.aLen := rfl
@[simp] theorem takeMemWrite_bAddr (a : Word) (v : Byte) (s : State) : (takeMemWrite a v s).bAddr = s.bAddr := rfl
@[simp] theorem takeMemWrite_bLen (a : Word) (v : Byte) (s : State) : (takeMemWrite a v s).bLen = s.bLen := rfl
@[simp] theorem takeMemWrite_result0 (a : Word) (v : Byte) (s : State) : (takeMemWrite a v s).result0 = s.result0 := rfl
@[simp] theorem takeMemWrite_result1 (a : Word) (v : Byte) (s : State) : (takeMemWrite a v s).result1 = s.result1 := rfl
@[simp] theorem takeMemWrite_errAddr (a : Word) (v : Byte) (s : State) : (takeMemWrite a v s).errAddr = s.errAddr := rfl
@[simp] theorem takeMemWrite_seq (a : Word) (v : Byte) (s : State) : (takeMemWrite a v s).seq = { s.seq with raced := s.seq.raced || runningDeclares s a.toNat } := rfl
@[simp] theorem takeMemWrite_mem (a : Word) (v : Byte) (s : State) : (takeMemWrite a v s).mem = s.mem.write a.toNat v := rfl
@[simp] theorem takeMemWrite_platform (a : Word) (v : Byte) (s : State) : (takeMemWrite a v s).platform = s.platform := rfl
@[simp] theorem takeMemWrite_inReset (a : Word) (v : Byte) (s : State) : (takeMemWrite a v s).inReset = s.inReset := rfl
@[simp] theorem takeMemWrite_turns (a : Word) (v : Byte) (s : State) : (takeMemWrite a v s).turns = s.turns := rfl
@[simp] theorem takeMemWrite_response (a : Word) (v : Byte) (s : State) : (takeMemWrite a v s).response = s.response := rfl
@[simp] theorem takeMemWrite_draws (a : Word) (v : Byte) (s : State) : (takeMemWrite a v s).draws = s.draws := rfl
@[simp] theorem takeMemWrite_recordedFault (a : Word) (v : Byte) (s : State) : (takeMemWrite a v s).recordedFault = s.recordedFault := rfl

@[simp] theorem Status.accept_busy (t : Status) : (t.accept).busy = t.busy := rfl
@[simp] theorem Status.accept_done (t : Status) : (t.accept).done = false := rfl
@[simp] theorem Status.accept_err (t : Status) : (t.accept).err = false := rfl
@[simp] theorem Status.accept_found (t : Status) : (t.accept).found = false := rfl
@[simp] theorem Status.accept_errcode (t : Status) : (t.accept).errcode = 0#4 := rfl

@[simp] theorem Status.completedOk_busy (found : Bool) : (Status.completedOk found).busy = false := rfl
@[simp] theorem Status.completedOk_done (found : Bool) : (Status.completedOk found).done = true := rfl
@[simp] theorem Status.completedOk_err (found : Bool) : (Status.completedOk found).err = false := rfl
@[simp] theorem Status.completedOk_found (found : Bool) : (Status.completedOk found).found = found := rfl
@[simp] theorem Status.completedOk_errcode (found : Bool) : (Status.completedOk found).errcode = 0#4 := rfl

@[simp] theorem Status.completedErr_busy (code : BitVec 4) : (Status.completedErr code).busy = false := rfl
@[simp] theorem Status.completedErr_done (code : BitVec 4) : (Status.completedErr code).done = false := rfl
@[simp] theorem Status.completedErr_err (code : BitVec 4) : (Status.completedErr code).err = true := rfl
@[simp] theorem Status.completedErr_found (code : BitVec 4) : (Status.completedErr code).found = false := rfl
@[simp] theorem Status.completedErr_errcode (code : BitVec 4) : (Status.completedErr code).errcode = code := rfl

@[simp] theorem Status.writeOneToClear_busy (v : Word) (t : Status) : (t.writeOneToClear v).busy = t.busy := rfl
@[simp] theorem Status.writeOneToClear_done (v : Word) (t : Status) : (t.writeOneToClear v).done = (t.done && !v.getLsbD 1) := rfl
@[simp] theorem Status.writeOneToClear_err (v : Word) (t : Status) : (t.writeOneToClear v).err = (t.err && !v.getLsbD 2) := rfl
@[simp] theorem Status.writeOneToClear_found (v : Word) (t : Status) : (t.writeOneToClear v).found = t.found := rfl
@[simp] theorem Status.writeOneToClear_errcode (v : Word) (t : Status) : (t.writeOneToClear v).errcode = t.errcode := rfl

@[simp] theorem Status.reset_busy  : (Status.reset).busy = false := rfl
@[simp] theorem Status.reset_done  : (Status.reset).done = false := rfl
@[simp] theorem Status.reset_err  : (Status.reset).err = false := rfl
@[simp] theorem Status.reset_found  : (Status.reset).found = false := rfl
@[simp] theorem Status.reset_errcode  : (Status.reset).errcode = 0#4 := rfl

@[simp] theorem Sequencer.settled_op (q : Sequencer) : q.settled.op = q.op := rfl
@[simp] theorem Sequencer.settled_idx (q : Sequencer) : q.settled.idx = q.idx := rfl
@[simp] theorem Sequencer.settled_crc (q : Sequencer) : q.settled.crc = q.crc := rfl
@[simp] theorem Sequencer.settled_cand (q : Sequencer) : q.settled.cand = q.cand := rfl
@[simp] theorem Sequencer.settled_hist (q : Sequencer) : q.settled.hist = q.hist := rfl
@[simp] theorem Sequencer.settled_reads (q : Sequencer) : q.settled.reads = Reads.answered := rfl
@[simp] theorem Sequencer.settled_raced (q : Sequencer) : q.settled.raced = false := rfl

/-- A read of a result register changes the response and the count of draws alone. -/
theorem respondResult_frame (v : Word) (s : State) :
    respondResult v s = { s with response := (respondResult v s).response, draws := (respondResult v s).draws } := by
  unfold respondResult respond; split <;> rfl

/-- A write of an operand register, in the two cases of R126. -/
theorem writeOperand_cases (w s : State) :
    (s.status.busy = true ∧ writeOperand w s = s) ∨ (s.status.busy = false ∧ writeOperand w s = w) := by
  unfold writeOperand; cases h : s.status.busy <;> simp

/-- The latched opcode of a started command names that command (R83, R108). -/
@[simp] theorem Command.ofOp_op (c : Command) : Command.ofOp c.op = some c := by cases c <;> rfl

/-- The only opcode that names a command is the command's own (R83). -/
theorem Command.ofOp_eq_some {op : BitVec 4} {c : Command} (h : Command.ofOp op = some c) : op = c.op := by
  revert op; cases c <;> decide

/-- A latched opcode decodes to its command's instruction (R84, R109). -/
@[simp] theorem decode_running (c : Command) : decode (.cmd (c.op.setWidth 32)) = .ok c.toInstr := by cases c <;> rfl

end Sys2Proof.Machine
end

