-- ==== Sys2Proof/Laws/HostProgram.lean ====
section
/-! SUPPORT. How POLL runs: it reads STATUS again while BUSY is read as 1, and ends with a value whose BUSY is 0 (R91). -/

namespace Sys2Proof.Machine

/-- The variable a value was just read into has that value. -/
@[simp] theorem HostContext.var_cons (p : List HostLine) (l v : Nat) (x : Word) (vs : List (Nat × Word)) :
    HostContext.var { program := p, line := l, vars := (v, x) :: vs } v = x := by
  simp [HostContext.var]

/-- A variable that nothing was read into has its free value (log 19). -/
@[simp] theorem HostContext.var_nil (p : List HostLine) (l v : Nat) :
    HostContext.var { program := p, line := l, vars := [] } v = Config.unreadVariable v := rfl

/-- POLL's branch tests BUSY: bit 0 of the STATUS value read. -/
theorem status_busy_mask (t : Status) : t.toWord &&& 0x00000001#32 ≠ 0#32 ↔ t.busy = true := by
  obtain ⟨b, d, e, f, c⟩ := t
  cases b <;> cases d <;> cases e <;> cases f <;> revert c <;> decide

/-- POLL's first line reads STATUS into the variable. -/
theorem hostStep_poll_read (var : Nat) (vs : List (Nat × Word)) (s : State) (h : s.inReset = false) :
    hostStep { program := poll var, line := 0, vars := vs } s =
      .next ({ program := poll var, line := 1, vars := (var, s.status.toWord) :: vs }, respond s.status.toWord s) := by
  have hd : decodeAccess { width := 32, write := false, offset := Register.status.offset, data := 0#32 } = .ok .rdStatus := rfl
  have hx : exec .rdStatus s = .next (respond s.status.toWord s) := rfl
  simp [hostStep, poll, hostRead, takeTurn, takeAccess, h, hd, hx, andThen, HostContext.nextLine]

/-- POLL's second line goes back to the read exactly when the value read has BUSY = 1; so POLL ends with BUSY = 0 in its
variable. -/
theorem hostStep_poll_branch (var : Nat) (vs : List (Nat × Word)) (t : Status) (s : State) :
    hostStep { program := poll var, line := 1, vars := (var, t.toWord) :: vs } s =
      .next ({ program := poll var, line := if t.busy then 0 else 2, vars := (var, t.toWord) :: vs }, s) := by
  have h := status_busy_mask t
  cases hb : t.busy <;> simp_all [hostStep, poll, HostContext.branch, HostContext.nextLine]

end Sys2Proof.Machine
end

