-- ==== Sys2Proof/Laws/Memory.lean ====
section
/-! SUPPORT. Memory: a read after a write, every other byte untouched, and the canonical form kept. -/

namespace Sys2Proof.Machine

@[simp] theorem Memory.read_nil (a : Nat) : Memory.read [] a = Memory.fill := rfl

theorem Memory.wfFrom_cons {lo b : Nat} {w : Byte} {m : Memory} :
    Memory.wfFrom lo ((b, w) :: m) = true ↔
      (lo ≤ b ∧ b < Config.memoryBytes ∧ w ≠ Memory.fill) ∧ Memory.wfFrom (b + 1) m = true := by
  simp [Memory.wfFrom, and_assoc]

theorem Memory.wfFrom_mono {lo lo' : Nat} {m : Memory} (hle : lo' ≤ lo) (h : Memory.wfFrom lo m = true) :
    Memory.wfFrom lo' m = true := by
  cases m with
  | nil => rfl
  | cons c m =>
    obtain ⟨b, w⟩ := c
    rw [Memory.wfFrom_cons] at h ⊢
    exact ⟨⟨hle.trans h.1.1, h.1.2⟩, h.2⟩

/-- No cell lies below the bound. -/
theorem Memory.read_below {lo a : Nat} {m : Memory} (h : Memory.wfFrom lo m = true) (ha : a < lo) :
    Memory.read m a = Memory.fill := by
  induction m generalizing lo with
  | nil => rfl
  | cons c m ih =>
    obtain ⟨b, w⟩ := c
    rw [Memory.wfFrom_cons] at h
    have : a ≠ b := by omega
    simpa [Memory.read, this] using ih h.2 (by omega)

theorem Memory.write_wfFrom {lo a : Nat} {v : Byte} {m : Memory} (h : Memory.wfFrom lo m = true) (hlo : lo ≤ a)
    (ha : a < Config.memoryBytes) : Memory.wfFrom lo (Memory.write m a v) = true := by
  induction m generalizing lo with
  | nil =>
    unfold Memory.write
    split
    · rfl
    · rename_i hv
      simp [Memory.wfFrom, hlo, ha, hv]
  | cons c m ih =>
    obtain ⟨b, w⟩ := c
    have hc := Memory.wfFrom_cons.mp h
    unfold Memory.write
    by_cases hab : a < b
    · rw [if_pos hab]
      split
      · exact h
      · rename_i hv
        rw [Memory.wfFrom_cons]
        exact ⟨⟨hlo, ha, hv⟩, Memory.wfFrom_cons.mpr ⟨⟨by omega, hc.1.2⟩, hc.2⟩⟩
    · rw [if_neg hab]
      by_cases heq : a = b
      · rw [if_pos heq]
        subst heq
        split
        · exact Memory.wfFrom_mono (by omega) hc.2
        · rename_i hv
          exact Memory.wfFrom_cons.mpr ⟨⟨hlo, ha, hv⟩, hc.2⟩
      · rw [if_neg heq]
        exact Memory.wfFrom_cons.mpr ⟨hc.1, ih hc.2 (by omega)⟩

/-- A write keeps the canonical form. -/
theorem Memory.write_wf {m : Memory} {a : Nat} {v : Byte} (h : m.wf = true) (ha : a < Config.memoryBytes) :
    (m.write a v).wf = true :=
  Memory.write_wfFrom h (Nat.zero_le a) ha

/-- A write by a turn keeps the canonical form: its address is 32 bits wide. -/
theorem Memory.write_word_wf {m : Memory} {a : Word} {v : Byte} (h : m.wf = true) : (m.write a.toNat v).wf = true :=
  Memory.write_wf h a.isLt

theorem Memory.read_write_same_from {lo a : Nat} {v : Byte} {m : Memory} (h : Memory.wfFrom lo m = true) :
    Memory.read (Memory.write m a v) a = v := by
  induction m generalizing lo with
  | nil =>
    unfold Memory.write
    split
    · rename_i hv; simp [hv]
    · simp [Memory.read]
  | cons c m ih =>
    obtain ⟨b, w⟩ := c
    have hc := Memory.wfFrom_cons.mp h
    unfold Memory.write
    by_cases hab : a < b
    · rw [if_pos hab]
      split
      · rename_i hv
        have : a ≠ b := by omega
        simpa [Memory.read, this, hv] using Memory.read_below hc.2 (by omega)
      · simp [Memory.read]
    · rw [if_neg hab]
      by_cases heq : a = b
      · rw [if_pos heq]
        subst heq
        split
        · rename_i hv
          rw [hv]; exact Memory.read_below hc.2 (by omega)
        · simp [Memory.read]
      · rw [if_neg heq]
        simpa [Memory.read, heq] using ih hc.2

/-- A read after a write to the same address gives the byte written. -/
theorem Memory.read_write_same {m : Memory} {a : Nat} {v : Byte} (h : m.wf = true) : (m.write a v).read a = v :=
  Memory.read_write_same_from h

/-- A write leaves every other byte alone. -/
theorem Memory.read_write_other {m : Memory} {a b : Nat} {v : Byte} (hne : b ≠ a) : (m.write a v).read b = m.read b := by
  induction m with
  | nil =>
    unfold Memory.write
    split
    · rfl
    · simp [Memory.read, hne]
  | cons c m ih =>
    obtain ⟨d, w⟩ := c
    unfold Memory.write
    by_cases had : a < d
    · rw [if_pos had]
      split
      · rfl
      · simp [Memory.read, hne]
    · rw [if_neg had]
      by_cases heq : a = d
      · rw [if_pos heq]
        subst heq
        split <;> simp [Memory.read, hne]
      · rw [if_neg heq]
        by_cases hbd : b = d
        · simp [Memory.read, hbd]
        · simp [Memory.read, hbd, ih]

theorem reset_memory_wf : State.reset.mem.wf = true := rfl

end Sys2Proof.Machine
end

