-- ==== Sys2Proof/Laws/Ops.lean ====
section
/-! SUPPORT. What each shared operation can do, said once. -/

namespace Sys2Proof.Machine

open Sys2Proof.Safety

/-- An address is declared exactly when it is a byte of a used operand (R107). -/
theorem declares_iff {c : Command} {s : State} {a : Nat} :
    declares c s a = true ↔ ∃ o ∈ usedOperands c s, ∃ i < o.len.toNat, a = o.addr.toNat + i := by
  simp only [declares, List.any_eq_true, Operand.declares, Bool.and_eq_true, decide_eq_true_eq]
  constructor
  · rintro ⟨o, ho, h1, h2⟩
    exact ⟨o, ho, a - o.addr.toNat, by omega, by omega⟩
  · rintro ⟨o, ho, i, hi, rfl⟩
    exact ⟨o, ho, by omega, by omega⟩

/-- A property holds of every declared address exactly when it holds wherever `declares` does. -/
theorem declaredAll_iff {c : Command} {s : State} {p : Nat → Bool} :
    declaredAll c s p = true ↔ ∀ a, declares c s a = true → p a = true := by
  simp only [declaredAll, List.all_eq_true, List.mem_range]
  constructor
  · intro h a ha
    obtain ⟨o, ho, i, hi, rfl⟩ := declares_iff.mp ha
    exact h o ho i hi
  · intro h o ho i hi
    exact h _ (declares_iff.mpr ⟨o, ho, i, hi, rfl⟩)

theorem Operand.fits_iff {o : Operand} : o.fits = true ↔ o.addr.toNat + o.len.toNat ≤ 2 ^ 32 := decide_eq_true_iff

/-- The range check passes exactly when every used operand fits (R106). -/
theorem rangeFailure_eq_none {c : Command} {s : State} :
    rangeFailure c s = none ↔ ∀ o ∈ usedOperands c s, o.addr.toNat + o.len.toNat ≤ 2 ^ 32 := by
  simp [rangeFailure, Operand.fits_iff]

/-- The parts of `runs`. -/
theorem runs_iff {c : Command} {s : State} :
    runs c s = true ↔ rangeFailure c s = none ∧ declaredAll c s (memReadable s.platform) = true ∧
      declaredAll c s (memIdempotent s.platform) = true ∧ s.seq.raced = false ∧ s.seq.reads = .answered := by
  simp [runs, and_assoc]

/-- No fault stands before memory's answers exactly when every declared byte is free of side effects and none was written. -/
theorem accessFault_eq_none {c : Command} {s : State} :
    accessFault c s = none ↔ declaredAll c s (memIdempotent s.platform) = true ∧ s.seq.raced = false := by
  unfold accessFault
  cases declaredAll c s (memIdempotent s.platform) <;> cases s.seq.raced <;> simp

/-- A command has no fault exactly when every declared byte is readable and free of side effects, and none was written. -/
theorem commandFault_eq_none {c : Command} {s : State} :
    commandFault c s = none ↔ declaredAll c s (memIdempotent s.platform) = true ∧ s.seq.raced = false ∧
      declaredAll c s (memReadable s.platform) = true := by
  unfold commandFault
  cases ha : accessFault c s with
  | none =>
    obtain ⟨h1, h2⟩ := accessFault_eq_none.mp ha
    simp [h1, h2]
  | some f =>
    have : ¬(declaredAll c s (memIdempotent s.platform) = true ∧ s.seq.raced = false) := fun h => by
      rw [accessFault_eq_none.mpr h] at ha; cases ha
    simp only [reduceCtorEq, false_iff]
    exact fun h => this ⟨h.1, h.2.1⟩

/-- A command that `runs` completes with the results of its rule (R110). -/
theorem runCommand_of_runs {c : Command} {k : State → Completion} {s : State} (h : runs c s = true) :
    runCommand c k s = .next (finish (k s) s) := by
  obtain ⟨h1, h2, h3, h4, h5⟩ := runs_iff.mp h
  simp [runCommand, awaitsAnswer, h1, commandFault_eq_none.mpr ⟨h3, h4, h2⟩, h5]

/-- Every next state of a command: a RANGE error, no change, or the results of its rule. -/
theorem runCommand_next {c : Command} {k : State → Completion} {s t : State} (h : runCommand c k s = .next t) :
    (∃ a, rangeFailure c s = some a ∧ t = completeErr errRange a s) ∨
    (rangeFailure c s = none ∧ awaitsAnswer c s = true ∧ t = s) ∨
    (rangeFailure c s = none ∧ declaredAll c s (memReadable s.platform) = true ∧ t = finish (k s) s) := by
  unfold runCommand at h
  cases hr : rangeFailure c s with
  | some a => simp only [hr] at h; cases h; exact .inl ⟨a, rfl, rfl⟩
  | none =>
    simp only [hr] at h
    split at h
    · cases h
    rename_i hf
    split at h
    · rename_i hw; cases h; exact .inr (.inl ⟨rfl, hw, rfl⟩)
    · cases h; exact .inr (.inr ⟨rfl, (commandFault_eq_none.mp hf).2.2, rfl⟩)

/-- Every next state of a bus error's completion: no change, or BUS with the fault of R194 recorded. -/
theorem completeBus_next {c : Command} {a : Word} {s t : State} (h : completeBus c a s = .next t) :
    (awaitsAnswer c s = true ∧ t = s) ∨
    t = { completeErr errBus a s with recordedFault := some .unreadableDeclaredByte } := by
  unfold completeBus at h
  split at h
  · cases h
  split at h
  · rename_i hw; cases h; exact .inl ⟨hw, rfl⟩
  · cases h; exact .inr rfl

/-- A command does the same in two states with the same used operands, sequencer, platform and results: the second outcome is the
first with the states' difference `g` carried along. -/
theorem runCommand_congr {c : Command} {k : State → Completion} {s s' : State} (g : State → State) (hg : g s = s')
    (hfin : g (finish (k s) s) = finish (k s') s') (herr : ∀ e a, g (completeErr e a s) = completeErr e a s')
    (hops : usedOperands c s = usedOperands c s') (hseq : s.seq = s'.seq) (hplat : s.platform = s'.platform) :
    runCommand c k s' = mapNext g (runCommand c k s) := by
  have hr : rangeFailure c s' = rangeFailure c s := by unfold rangeFailure; rw [hops]
  have hd : ∀ p, declaredAll c s' p = declaredAll c s p := by intro p; unfold declaredAll; rw [hops]
  have hm : ∀ a, declares c s' a = declares c s a := by intro a; unfold declares; rw [hops]
  have hw : awaitsAnswer c s' = awaitsAnswer c s := by unfold awaitsAnswer; simp [hm, hseq]
  have hf : accessFault c s' = accessFault c s := by unfold accessFault; rw [hd, ← hseq, ← hplat]
  have hc : commandFault c s' = commandFault c s := by unfold commandFault; rw [hf, hd, ← hplat]
  unfold runCommand
  rw [hr, hc, hw]
  cases rangeFailure c s with
  | some a => simp [mapNext, herr]
  | none =>
    cases commandFault c s with
    | some f => rfl
    | none => simp only; split <;> simp [mapNext, hg, hfin]

/-- Every outcome of a command request (R100). -/
theorem requestCommand_cases (w : Word) (s : State) :
    (s.status.busy = true ∧ requestCommand w s = s) ∨
    (s.status.busy = false ∧ Command.ofWord w = none ∧ requestCommand w s = completeErr errIllegalOp 0#32 s) ∨
    (∃ c a, s.status.busy = false ∧ Command.ofWord w = some c ∧ rangeFailure c s = some a ∧
      requestCommand w s = completeErr errRange a s) ∨
    (∃ c, s.status.busy = false ∧ Command.ofWord w = some c ∧ rangeFailure c s = none ∧
      requestCommand w s = startCommand c s) := by
  unfold requestCommand
  cases hb : s.status.busy
  · cases hw : Command.ofWord w with
    | none => simp
    | some c =>
      cases hr : rangeFailure c s with
      | none => right; right; right; exact ⟨c, by simp [hr]⟩
      | some a => right; right; left; exact ⟨c, a, by simp [hr]⟩
  · simp

/-- Which meaning a command's instruction has. -/
theorem exec_command (c : Command) :
    ∃ k : State → Completion, ∀ s, exec c.toInstr s = runCommand c k s := by
  cases c
  · exact ⟨crcCompletion, fun _ => rfl⟩
  · exact ⟨cmpCompletion, fun _ => rfl⟩
  · exact ⟨searchCompletion, fun _ => rfl⟩
  · exact ⟨entropyCompletion, fun _ => rfl⟩

end Sys2Proof.Machine
end

