-- ==== Sys2Proof/Laws/PerInstr.lean ====
section
/-! SUPPORT. Statements about every instruction, one lemma per constructor. -/

namespace Sys2Proof.Laws

/-- The instruction's encoding is a form of R80 with the checks of R81 and R82 met: a legal command word, or an aligned TXN code. -/
def EncodesInFormat.Statement (i : Instr) : Prop := (encode i).wf = true

theorem EncodesInFormat.crc32 : EncodesInFormat.Statement .crc32 := rfl
theorem EncodesInFormat.cmp : EncodesInFormat.Statement .cmp := rfl
theorem EncodesInFormat.search : EncodesInFormat.Statement .search := rfl
theorem EncodesInFormat.entropy : EncodesInFormat.Statement .entropy := rfl
theorem EncodesInFormat.rdId : EncodesInFormat.Statement .rdId := rfl
theorem EncodesInFormat.wrId (data : Word) : EncodesInFormat.Statement (.wrId data) := rfl
theorem EncodesInFormat.rdCtrl : EncodesInFormat.Statement .rdCtrl := rfl
theorem EncodesInFormat.wrCtrl (data : Word) : EncodesInFormat.Statement (.wrCtrl data) := rfl
theorem EncodesInFormat.rdStatus : EncodesInFormat.Statement .rdStatus := rfl
theorem EncodesInFormat.wrStatus (data : Word) : EncodesInFormat.Statement (.wrStatus data) := rfl
theorem EncodesInFormat.rdCmd : EncodesInFormat.Statement .rdCmd := rfl
theorem EncodesInFormat.wrCmd (data : Word) : EncodesInFormat.Statement (.wrCmd data) := rfl
theorem EncodesInFormat.rdAAddr : EncodesInFormat.Statement .rdAAddr := rfl
theorem EncodesInFormat.wrAAddr (data : Word) : EncodesInFormat.Statement (.wrAAddr data) := rfl
theorem EncodesInFormat.rdALen : EncodesInFormat.Statement .rdALen := rfl
theorem EncodesInFormat.wrALen (data : Word) : EncodesInFormat.Statement (.wrALen data) := rfl
theorem EncodesInFormat.rdBAddr : EncodesInFormat.Statement .rdBAddr := rfl
theorem EncodesInFormat.wrBAddr (data : Word) : EncodesInFormat.Statement (.wrBAddr data) := rfl
theorem EncodesInFormat.rdBLen : EncodesInFormat.Statement .rdBLen := rfl
theorem EncodesInFormat.wrBLen (data : Word) : EncodesInFormat.Statement (.wrBLen data) := rfl
theorem EncodesInFormat.rdResult0 : EncodesInFormat.Statement .rdResult0 := rfl
theorem EncodesInFormat.wrResult0 (data : Word) : EncodesInFormat.Statement (.wrResult0 data) := rfl
theorem EncodesInFormat.rdResult1 : EncodesInFormat.Statement .rdResult1 := rfl
theorem EncodesInFormat.wrResult1 (data : Word) : EncodesInFormat.Statement (.wrResult1 data) := rfl
theorem EncodesInFormat.rdErrAddr : EncodesInFormat.Statement .rdErrAddr := rfl
theorem EncodesInFormat.wrErrAddr (data : Word) : EncodesInFormat.Statement (.wrErrAddr data) := rfl
theorem EncodesInFormat.rdRsvd2C : EncodesInFormat.Statement .rdRsvd2C := rfl
theorem EncodesInFormat.wrRsvd2C (data : Word) : EncodesInFormat.Statement (.wrRsvd2C data) := rfl
theorem EncodesInFormat.rdRsvd30 : EncodesInFormat.Statement .rdRsvd30 := rfl
theorem EncodesInFormat.wrRsvd30 (data : Word) : EncodesInFormat.Statement (.wrRsvd30 data) := rfl
theorem EncodesInFormat.rdRsvd34 : EncodesInFormat.Statement .rdRsvd34 := rfl
theorem EncodesInFormat.wrRsvd34 (data : Word) : EncodesInFormat.Statement (.wrRsvd34 data) := rfl
theorem EncodesInFormat.rdRsvd38 : EncodesInFormat.Statement .rdRsvd38 := rfl
theorem EncodesInFormat.wrRsvd38 (data : Word) : EncodesInFormat.Statement (.wrRsvd38 data) := rfl
theorem EncodesInFormat.rdRsvd3C : EncodesInFormat.Statement .rdRsvd3C := rfl
theorem EncodesInFormat.wrRsvd3C (data : Word) : EncodesInFormat.Statement (.wrRsvd3C data) := rfl

end Sys2Proof.Laws
end

