-- ==== Sys2Proof/Laws/Safety.lean ====
section
/-! SUPPORT. What the terms of Safety.lean say, in the form proofs use. -/

namespace Sys2Proof.Machine

open Sys2Proof.Safety

/-- STATUS reads as a value of R30 exactly in these cases: running; completed without error, acknowledged or not; completed with
error code 1, 2 or 3, acknowledged or not. -/
theorem Status.legal_iff (t : Status) :
    t.toWord ∈ statusValues ↔
      (t.busy = true ∧ t.done = false ∧ t.err = false ∧ t.found = false ∧ t.errcode = 0#4) ∨
      (t.busy = false ∧ t.err = false ∧ t.errcode = 0#4) ∨
      (t.busy = false ∧ t.done = false ∧ t.found = false ∧
        (t.errcode = errIllegalOp ∨ t.errcode = errRange ∨ t.errcode = errBus)) := by
  obtain ⟨b, d, e, f, c⟩ := t
  cases b <;> cases d <;> cases e <;> cases f <;> revert c <;> decide

/-- The word of a command, and no other word, requests it (R81, R83). -/
theorem Command.ofWord_eq_some {w : Word} {c : Command} : Command.ofWord w = some c ↔ w = 0#28 ++ c.op := by
  constructor
  · intro h
    unfold Command.ofWord at h
    split at h
    · rename_i h4
      have hlt : w.toNat < 16 := by
        have := congrArg BitVec.toNat h4
        simp [BitVec.extractLsb', Nat.shiftRight_eq_div_pow] at this
        omega
      have key : ∀ n < 16, Command.ofOp ((BitVec.ofNat 32 n).extractLsb' 0 4) = some c → BitVec.ofNat 32 n = 0#28 ++ c.op := by
        cases c <;> decide
      have := key w.toNat hlt
      simp only [BitVec.ofNat_toNat, BitVec.setWidth_eq] at this
      exact this h
    · cases h
  · rintro rfl; cases c <;> rfl

/-- `complete_ok` gives the state R112 describes. -/
theorem completeOk_completedWith (r0 r1 : Word) (found : Bool) (s : State) :
    CompletedWith s (completeOk r0 r1 found s) r0 r1 found := by
  constructor <;> first | rfl | (constructor <;> rfl)

/-- `complete_err` gives the state R113 describes. -/
theorem completeErr_failedWith (code : BitVec 4) (addr : Word) (s : State) : FailedWith s (completeErr code addr s) code addr := by
  constructor <;> first | rfl | (constructor <;> rfl)

/-- A finished command gives the state R112 describes. -/
theorem finish_completedWith (k : Completion) (s : State) : CompletedWith s (finish k s) k.r0 k.r1 k.found := by
  constructor <;> first | rfl | (constructor <;> rfl)

end Sys2Proof.Machine
end

