-- ==== Sys2Proof/Laws/Step.lean ====
section
/-! SUPPORT. What one step can do, said once, and what every instruction leaves alone. -/

namespace Sys2Proof.Machine

/-- What no instruction changes: memory (R58), the platform, the reset input, the pending turns and a recorded fault. -/
theorem exec_frame {i : Instr} {s t : State} (h : exec i s = .next t) :
    t.mem = s.mem ∧ t.platform = s.platform ∧ t.inReset = s.inReset ∧ t.turns = s.turns ∧ t.recordedFault = s.recordedFault := by
  have hcommand : ∀ c : Command, exec c.toInstr s = .next t →
      t.mem = s.mem ∧ t.platform = s.platform ∧ t.inReset = s.inReset ∧ t.turns = s.turns ∧ t.recordedFault = s.recordedFault := by
    intro c h
    obtain ⟨k, hk⟩ := exec_command c
    rw [hk] at h
    rcases runCommand_next h with ⟨a, -, rfl⟩ | ⟨-, -, rfl⟩ | ⟨-, -, rfl⟩ <;> simp
  cases i
  case crc32 => exact hcommand .crc32 h
  case cmp => exact hcommand .cmp h
  case search => exact hcommand .search h
  case entropy => exact hcommand .entropy h
  case wrCmd w =>
    cases h
    rcases requestCommand_cases w s with ⟨-, e⟩ | ⟨-, -, e⟩ | ⟨c, a, -, -, -, e⟩ | ⟨c, -, -, -, e⟩ <;> rw [e] <;> simp
  all_goals
    cases h
    first
      | simp
      | (rw [respondResult_frame]; simp)
      | (rcases writeOperand_cases _ s with ⟨-, e⟩ | ⟨-, e⟩ <;> rw [e] <;> simp)

/-- Every outcome of the core's turn that is a next state: the running command runs, an opcode outside R83 ends as an illegal one
does, or nothing runs. -/
theorem takeCore_cases {s t : State} (h : takeCore s = .next t) :
    (∃ c : Command, s.status.busy = true ∧ s.seq.op = c.op ∧ exec c.toInstr s = .next t) ∨
    (s.status.busy = true ∧ (∀ c : Command, s.seq.op ≠ c.op) ∧ t = completeErr errIllegalOp 0#32 s) ∨
    (s.status.busy = false ∧ t = s) := by
  have hword : Command.ofWord (runningWord s) = Command.ofOp s.seq.op := by
    unfold runningWord Command.ofWord
    have hz : ∀ op : BitVec 4, (op.setWidth 32).extractLsb' 4 28 = 0#28 ∧ (op.setWidth 32).extractLsb' 0 4 = op := by decide
    rw [if_pos (hz _).1, (hz _).2]
  unfold takeCore at h
  cases hb : s.status.busy with
  | false => rw [hb] at h; cases h; exact .inr (.inr ⟨rfl, rfl⟩)
  | true =>
    cases ho : Command.ofOp s.seq.op with
    | none =>
      simp [hb, decode, decodeCommand, hword, ho] at h
      refine .inr (.inl ⟨rfl, fun c hc => ?_, h.symm⟩)
      rw [hc, Command.ofOp_op] at ho; cases ho
    | some c =>
      simp [hb, decode, decodeCommand, hword, ho] at h
      exact .inl ⟨c, rfl, Command.ofOp_eq_some ho, h⟩

/-- A step that gives a next state took the core's turn or the first pending one. -/
theorem step_cases {s t : State} (h : step s = .next t) :
    (s.turns = [] ∧ takeCore s = .next t) ∨
    (∃ ts, s.turns = .core :: ts ∧ takeCore { s with turns := ts } = .next t) ∨
    (∃ a i ts, s.turns = .access a :: ts ∧ s.inReset = false ∧ decodeAccess a = .ok i ∧ exec i { s with turns := ts } = .next t) ∨
    (∃ a v ts, s.turns = .memWrite a v :: ts ∧ t = takeMemWrite a v { s with turns := ts }) ∨
    (∃ a ts, s.turns = .busError a :: ts ∧ takeBusError a { s with turns := ts } = .next t) ∨
    (∃ a ts, s.turns = .noAnswer a :: ts ∧ t = takeNoAnswer a { s with turns := ts }) ∨
    (∃ b ts, s.turns = .resetInput b :: ts ∧ t = takeResetInput b { s with turns := ts }) := by
  unfold step advance at h
  cases ht : s.turns with
  | nil => rw [ht] at h; exact .inl ⟨rfl, h⟩
  | cons tn ts =>
    rw [ht] at h
    right
    cases tn with
    | core => exact .inl ⟨ts, rfl, h⟩
    | access a =>
      simp only [takeTurn, takeAccess] at h
      split at h
      · cases h
      · rename_i hr
        cases hd : decodeAccess a with
        | error e => simp [hd] at h
        | ok i =>
          simp only [hd] at h
          exact .inr (.inl ⟨a, i, ts, rfl, by simpa using hr, hd, h⟩)
    | memWrite a v => cases h; exact .inr (.inr (.inl ⟨a, v, ts, rfl, rfl⟩))
    | busError a => exact .inr (.inr (.inr (.inl ⟨a, ts, rfl, h⟩)))
    | noAnswer a => cases h; exact .inr (.inr (.inr (.inr (.inl ⟨a, ts, rfl, rfl⟩))))
    | resetInput b => cases h; exact .inr (.inr (.inr (.inr (.inr ⟨b, ts, rfl, rfl⟩))))

/-- The running command is the one whose opcode is latched, while BUSY. -/
theorem runningCommand_eq_some {s : State} {c : Command} :
    runningCommand s = some c ↔ s.status.busy = true ∧ s.seq.op = c.op := by
  unfold runningCommand
  cases s.status.busy with
  | false => simp
  | true =>
    simp only [if_true, true_and]
    exact ⟨Command.ofOp_eq_some, fun h => by rw [h, Command.ofOp_op]⟩

/-- Nothing runs when BUSY is 0. -/
theorem runningCommand_of_idle {s : State} (h : s.status.busy = false) : runningCommand s = none := by
  simp [runningCommand, h]

/-- The fault of the running command is that of the one whose opcode is latched. -/
theorem runningFault_of_running {s : State} {c : Command} (hb : s.status.busy = true) (ho : s.seq.op = c.op) :
    runningFault s = commandFault c s := by
  simp [runningFault, runningCommand_eq_some.mpr ⟨hb, ho⟩]

/-- Nothing that runs, no fault. -/
theorem runningFault_of_idle {s : State} (h : s.status.busy = false) : runningFault s = none := by
  simp [runningFault, runningCommand_of_idle h]

/-- No address is declared when nothing runs. -/
theorem runningDeclares_of_idle {s : State} (h : s.status.busy = false) (a : Nat) : runningDeclares s a = false := by
  simp [runningDeclares, runningCommand_of_idle h]

/-- While a command runs, its declared addresses are the running ones. -/
theorem runningDeclares_of_running {s : State} {c : Command} (hb : s.status.busy = true) (ho : s.seq.op = c.op) (a : Nat) :
    runningDeclares s a = declares c s a := by
  simp [runningDeclares, runningCommand_eq_some.mpr ⟨hb, ho⟩]

/-- Every next state of a bus error's turn: no change, or the running command ends with BUS at an unreadable declared address, and
the fault of R194 is recorded. -/
theorem takeBusError_cases {a : Word} {s t : State} (h : takeBusError a s = .next t) :
    t = s ∨ (∃ c : Command, s.status.busy = true ∧ s.seq.op = c.op ∧ declares c s a.toNat = true ∧
      memReadable s.platform a.toNat = false ∧
      t = { completeErr errBus a s with recordedFault := some .unreadableDeclaredByte }) := by
  unfold takeBusError at h
  split at h
  · rename_i c hc
    obtain ⟨hb, ho⟩ := runningCommand_eq_some.mp hc
    split at h
    · rename_i hd
      rcases completeBus_next h with ⟨-, rfl⟩ | e
      · exact .inl rfl
      · exact .inr ⟨c, hb, ho, by simp_all, by simp_all, e⟩
    · cases h; exact .inl rfl
  · cases h; exact .inl rfl

/-- A read that is never answered changes nothing but the sequencer's read state. -/
theorem takeNoAnswer_frame (a : Word) (s : State) :
    takeNoAnswer a s = { s with seq := { s.seq with reads := (takeNoAnswer a s).seq.reads } } := by
  unfold takeNoAnswer; split <;> rfl

end Sys2Proof.Machine
end

