-- ==== Sys2Proof/Machine/Reference.lean ====
section
/-! DEFINITION. The reference instance of ENTROPY_FN (R175): one admissible choice, the default of the spec's test vectors. No
instruction uses it: ENTROPY takes the OPEN `entropyFn` (log 7). Log 9 says how the correctly rounded LOG2 is computed. -/

namespace Sys2Proof.Machine

/-- A number of at most 53 significant bits, `m / 2 ^ s`, zero or positive. -/
structure Rounded where
  m : Nat
  s : Nat
deriving DecidableEq, Repr

/-- The quotient rounded to the nearest integer, ties to even. -/
def divNearestEven (num den : Nat) : Nat :=
  let q := num / den
  let r := num % den
  if 2 * r < den then q else if den < 2 * r then q + 1 else q + q % 2

/-- `fl(num / den)` of a positive quotient below 16: 53 significant bits, to nearest, ties to even. -/
def roundRatio (num den : Nat) : Rounded :=
  let s := 52 + Nat.log2 den - Nat.log2 num
  let s := if num * 2 ^ s / den < 2 ^ 52 then s + 1 else s
  { m := divNearestEven (num * 2 ^ s) den, s := s }

/-- Fraction bits of the fixed-point numbers that LOG2 squares. -/
def log2FixedBits : Nat := 320

/-- The first `fuel` bits after the point of log2 x, for x in [1, 2), as an integer: square x, and where the square is 2 or more
the bit is 1 and the square is halved. -/
def log2Bits (fuel : Nat) (x : Nat) (acc : Nat) : Nat :=
  match fuel with
  | 0 => acc
  | n + 1 =>
    let y := x * x / 2 ^ log2FixedBits
    if 2 ^ (log2FixedBits + 1) ≤ y then log2Bits n (y / 2) (2 * acc + 1) else log2Bits n y (2 * acc)

/-- `-LOG2(p)` for 0 < p < 1. Exact when p is a power of two; else rounded from 160 bits after the point, taken half a unit
below, which is never a tie. -/
def minusLog2 (p : Rounded) : Rounded :=
  let l := Nat.log2 p.m
  if p.m = 2 ^ l then roundRatio (p.s - l) 1
  else
    let bits := log2Bits 160 (p.m * 2 ^ log2FixedBits / 2 ^ l) 0
    roundRatio (2 * ((p.s - l) * 2 ^ 160 - bits) - 1) (2 ^ 161)

/-- `fl(p * q)`. -/
def Rounded.mul (p q : Rounded) : Rounded := roundRatio (p.m * q.m) (2 ^ (p.s + q.s))

/-- `fl(p + q)`, with zero neutral. -/
def Rounded.add (p q : Rounded) : Rounded :=
  if p.m = 0 then q else if q.m = 0 then p
  else roundRatio (p.m * 2 ^ q.s + q.m * 2 ^ p.s) (2 ^ (p.s + q.s))

/-- `-t` of one value's term: `-fl(p * LOG2(p))`, zero for p = 1. -/
def referenceTerm (count n : Word) : Rounded :=
  if count = n then { m := 0, s := 0 }
  else
    let p := roundRatio count.toNat n.toNat
    p.mul (minusLog2 p)

/-- The binary64 bits of a number below 16 (R171). -/
def Rounded.bits (x : Rounded) : Binary64 :=
  if x.m = 0 then binary64Zero
  else
    let l := Nat.log2 x.m
    BitVec.ofNat 64 ((1023 + l - x.s) * 2 ^ 52 + (x.m * 2 ^ 53 / 2 ^ l / 2 - 2 ^ 52))

/-- `ref(H, n)`, for n >= 1: the terms added in ascending order of value, and the clamp to 8.0 (R175). -/
def referenceEntropy (h : Histogram) (n : Word) : Binary64 :=
  let total : Rounded := (occurring h).foldl (fun (acc : Rounded) c => acc.add (referenceTerm c n)) { m := 0, s := 0 }
  clampBits binary64Zero binary64Eight total.bits

end Sys2Proof.Machine
end

