-- ==== Sys2Proof/Tests/Slice0.lean ====
section
/-! SUPPORT. Tests with expected results from the spec's tables and vectors (30_encoding.md, 95_test_vectors.md), and for each
obligation with hypotheses a named witness that meets them. -/

namespace Sys2Proof.Tests

open Sys2Proof.Machine Sys2Proof.Safety

/-! ## Small states -/

/-- Memory with the bytes of a buffer at an address. -/
def put (addr : Nat) (bytes : List Byte) (m : Memory) : Memory :=
  (bytes.zip (List.range bytes.length)).foldl (fun m p => m.write (addr + p.2) p.1) m

/-- The machine after reset with two buffers in memory and the operand registers naming them. -/
def loaded (aAddr : Word) (a : List Byte) (bAddr : Word) (b : List Byte) : State :=
  { State.reset with
    mem := put bAddr.toNat b (put aAddr.toNat a [])
    aAddr := aAddr, aLen := BitVec.ofNat 32 a.length, bAddr := bAddr, bLen := BitVec.ofNat 32 b.length }

/-- The operand registers set, memory as after reset. -/
def operands (aAddr aLen bAddr bLen : Word) : State :=
  { State.reset with irqEn := true, aAddr := aAddr, aLen := aLen, bAddr := bAddr, bLen := bLen }

/-- What a host reads after a step: STATUS, RESULT0, RESULT1, ERR_ADDR. -/
def seen : Host.Outcome State Fault Refusal → Option (Word × Word × Word × Word)
  | .next s => some (s.status.toWord, s.result0, s.result1, s.errAddr)
  | _ => none

/-- The response and STATUS after a step. -/
def answered : Host.Outcome State Fault Refusal → Option (Option Word × Word)
  | .next s => some (s.response, s.status.toWord)
  | _ => none

/-- Why a step stopped. -/
def stopped : Host.Outcome State Fault Refusal → Option (Fault ⊕ Refusal)
  | .next _ => none
  | .fault f => some (.inl f)
  | .refused r => some (.inr r)

/-- A 32-bit access at a slot. -/
def wordAccess (write : Bool) (offset : BitVec 6) (data : Word) : Access :=
  { width := 32, write := write, offset := offset, data := data }

def abc : List Byte := [0x61#8, 0x62#8, 0x63#8]
def abd : List Byte := [0x61#8, 0x62#8, 0x64#8]
def digits : List Byte := [0x31#8, 0x32#8, 0x33#8, 0x34#8, 0x35#8, 0x36#8, 0x37#8, 0x38#8, 0x39#8]
def hello : List Byte := [0x68#8, 0x65#8, 0x6C#8, 0x6C#8, 0x6F#8, 0x20#8, 0x77#8, 0x6F#8, 0x72#8, 0x6C#8, 0x64#8]

/-! ## WellFormed: an ill-formed term for each check -/

theorem test_wf_access_width : Access.wf { width := 16, write := false, offset := 0x08#6, data := 0#32 } = false := by decide
theorem test_wf_access_offset : Access.wf { width := 32, write := false, offset := 0x0A#6, data := 0#32 } = false := by decide
theorem test_wf_command_reserved : wfCommandWord 0x00000011#32 = false := by decide
theorem test_wf_command_opcode : wfCommandWord 0x00000005#32 = false ∧ wfCommandWord 0x00000000#32 = false := by decide
theorem test_wf_encoded_command : Encoded.wf (.cmd 0x80000001#32) = false := by decide
theorem test_wf_encoded_transaction : Encoded.wf (.bus 0x4D#7 0#32) = false := by decide
theorem test_wf_region : Region.wf ⟨0xFFFFFFFF, 2⟩ = false := by decide
theorem test_wf_platform_base : Platform.wf ⟨0x40000020#32, [], []⟩ = false := by decide
theorem test_wf_platform_unreadable : Platform.wf ⟨0x40000000#32, [⟨0xFFFFFFFF, 2⟩], []⟩ = false := by decide
theorem test_wf_platform_side_effecting : Platform.wf ⟨0x40000000#32, [], [⟨0xFFFFFFFF, 2⟩]⟩ = false := by decide
theorem test_wf_accepts : Access.wf (wordAccess true 0x3C#6 0#32) = true ∧ wfCommandWord 0x00000004#32 = true ∧
    Region.wf ⟨0xFFFFFFFF, 1⟩ = true ∧ Platform.wf State.reset.platform = true := by decide

/-! ## Decoding: words written out from 30_encoding.md, R83 and R85 -/

theorem test_decode_commands :
    decodeTableWord 32 0b00000000000000000000000000000001 = some .crc32 ∧
    decodeTableWord 32 0b00000000000000000000000000000010 = some .cmp ∧
    decodeTableWord 32 0b00000000000000000000000000000011 = some .search ∧
    decodeTableWord 32 0b00000000000000000000000000000100 = some .entropy := by decide

theorem test_decode_illegal_commands :
    decode (.cmd 0x00000000#32) = .error .illegalCommand ∧ decode (.cmd 0x00000005#32) = .error .illegalCommand ∧
    decode (.cmd 0x0000000F#32) = .error .illegalCommand ∧ decode (.cmd 0x00000011#32) = .error .illegalCommand ∧
    decode (.cmd 0x80000001#32) = .error .illegalCommand := by decide

theorem test_decode_reads :
    decodeTableWord 7 0b0000000 = some .rdId ∧ decodeTableWord 7 0b0000100 = some .rdCtrl ∧
    decodeTableWord 7 0b0001000 = some .rdStatus ∧ decodeTableWord 7 0b0001100 = some .rdCmd ∧
    decodeTableWord 7 0b0010000 = some .rdAAddr ∧ decodeTableWord 7 0b0010100 = some .rdALen ∧
    decodeTableWord 7 0b0011000 = some .rdBAddr ∧ decodeTableWord 7 0b0011100 = some .rdBLen ∧
    decodeTableWord 7 0b0100000 = some .rdResult0 ∧ decodeTableWord 7 0b0100100 = some .rdResult1 ∧
    decodeTableWord 7 0b0101000 = some .rdErrAddr ∧ decodeTableWord 7 0b0101100 = some .rdRsvd2C ∧
    decodeTableWord 7 0b0110000 = some .rdRsvd30 ∧ decodeTableWord 7 0b0110100 = some .rdRsvd34 ∧
    decodeTableWord 7 0b0111000 = some .rdRsvd38 ∧ decodeTableWord 7 0b0111100 = some .rdRsvd3C := by decide

/-- A data word of 0xA5000001 above the byte of the code. -/
theorem test_decode_writes :
    decodeTableWord 40 0xA500000140 = some (.wrId 0xA5000001#32) ∧ decodeTableWord 40 0xA500000144 = some (.wrCtrl 0xA5000001#32) ∧
    decodeTableWord 40 0xA500000148 = some (.wrStatus 0xA5000001#32) ∧ decodeTableWord 40 0xA50000014C = some (.wrCmd 0xA5000001#32) ∧
    decodeTableWord 40 0xA500000150 = some (.wrAAddr 0xA5000001#32) ∧ decodeTableWord 40 0xA500000154 = some (.wrALen 0xA5000001#32) ∧
    decodeTableWord 40 0xA500000158 = some (.wrBAddr 0xA5000001#32) ∧ decodeTableWord 40 0xA50000015C = some (.wrBLen 0xA5000001#32) ∧
    decodeTableWord 40 0xA500000160 = some (.wrResult0 0xA5000001#32) ∧ decodeTableWord 40 0xA500000164 = some (.wrResult1 0xA5000001#32) ∧
    decodeTableWord 40 0xA500000168 = some (.wrErrAddr 0xA5000001#32) ∧ decodeTableWord 40 0xA50000016C = some (.wrRsvd2C 0xA5000001#32) ∧
    decodeTableWord 40 0xA500000170 = some (.wrRsvd30 0xA5000001#32) ∧ decodeTableWord 40 0xA500000174 = some (.wrRsvd34 0xA5000001#32) ∧
    decodeTableWord 40 0xA500000178 = some (.wrRsvd38 0xA5000001#32) ∧
    decodeTableWord 40 0xA50000017C = some (.wrRsvd3C 0xA5000001#32) := by decide

theorem test_decode_writes_code_only :
    decodeTableWord 7 0b1000000 = some (.wrId 0#32) ∧ decodeTableWord 8 0b01001100 = some (.wrCmd 0#32) ∧
    decodeTableWord 7 0b1111100 = some (.wrRsvd3C 0#32) := by decide

theorem test_decode_rejects :
    decodeTableWord 8 0x4D = none ∧ decodeTableWord 8 0x80 = none ∧ decodeTableWord 16 0x08 = none ∧
    decodeAccess { width := 8, write := true, offset := 0x0C#6, data := 1#32 } = .error .notAWord := by decide

/-- R92's example: `SETA 0x1000, 9` and `RUN CRC32` encode as 50:00001000 54:00000009 4C:00000001 08. -/
theorem test_encode_program :
    encodeProgram (setA 0x1000#32 9#32 ++ run .crc32 0) =
      [(0x50#7, some 0x00001000#32), (0x54#7, some 0x00000009#32), (0x4C#7, some 0x00000001#32), (0x08#7, none)] := by decide

/-- The pseudo-operations' expansions, as R91's table has them. -/
theorem test_pseudo_operations :
    setB 0x2100#32 5#32 = [.write .bAddr 0x2100#32, .write .bLen 5#32] ∧
    Machine.ack = [.write .status 6#32] ∧
    run .search 3 = [.write .cmd 3#32, .read .status 3, .gotoIf 3 1#32 1] := by decide

/-! ## Commands: vectors of 95_test_vectors.md -/

/-- C8. -/
theorem test_crc32_digits :
    seen (exec .crc32 (loaded 0x1000#32 digits 0#32 [])) = some (0x00000002#32, 0xCBF43926#32, 0#32, 0#32) := by decide +kernel

/-- C17: 16 zero bytes that end at 2^32. -/
theorem test_crc32_top_of_memory :
    seen (exec .crc32 (operands 0xFFFFFFF0#32 16#32 0#32 0#32)) = some (0x00000002#32, 0xECBB4B55#32, 0#32, 0#32) := by decide +kernel

/-- The ROM's spot checks (R141). -/
theorem test_crc_rom : crcEntry 0x00 = 0x00000000#32 ∧ crcEntry 0x01 = 0x77073096#32 ∧ crcEntry 0x80 = 0xEDB88320#32 ∧
    crcEntry 0xFF = 0x2D02EF8D#32 := by decide

/-- M5: unsigned bytes. B_LEN is not used. -/
theorem test_cmp_unsigned :
    seen (exec .cmp (loaded 0x2000#32 [0x80#8] 0x2100#32 [0x7F#8])) = some (0x00000002#32, 0x00000001#32, 0#32, 0#32) := by
  decide +kernel

/-- M7: the word-grouping hazard. -/
theorem test_cmp_lowest_address_first :
    seen (exec .cmp (loaded 0x2000#32 [1#8, 2#8] 0x2100#32 [2#8, 1#8])) = some (0x00000002#32, 0xFFFFFFFF#32, 0#32, 0#32) := by
  decide +kernel

/-- Q1. -/
theorem test_search_world :
    seen (exec .search (loaded 0x2000#32 hello 0x2100#32 (hello.drop 6))) = some (0x0000000A#32, 0x00000006#32, 0#32, 0#32) := by
  decide +kernel

/-- Q11: a partial match first; and Q3: an empty needle. -/
theorem test_search_partial_and_empty :
    seen (exec .search (loaded 0x2000#32 [0x61#8, 0x61#8, 0x61#8, 0x62#8] 0x2100#32 [0x61#8, 0x61#8, 0x62#8])) =
      some (0x0000000A#32, 0x00000001#32, 0#32, 0#32) ∧
    seen (exec .search (loaded 0x2000#32 abc 0x2100#32 [])) = some (0x00000002#32, 0xFFFFFFFF#32, 0#32, 0#32) := by decide +kernel

/-- E9: four equally frequent values, for every ENTROPY_FN. -/
theorem test_entropy_abcd :
    seen (exec .entropy (loaded 0x3000#32 (abc ++ [0x64#8]) 0#32 [])) = some (0x00000002#32, 0#32, 0x40000000#32, 0#32) := by
  decide +kernel

/-- E1 and E3: the empty buffer and one repeated value. -/
theorem test_entropy_zero :
    seen (exec .entropy (loaded 0x3000#32 [] 0#32 [])) = some (0x00000002#32, 0#32, 0#32, 0#32) ∧
    seen (exec .entropy (loaded 0x3000#32 [0x61#8, 0x61#8, 0x61#8, 0x61#8] 0#32 [])) = some (0x00000002#32, 0#32, 0#32, 0#32) := by
  decide +kernel

/-- E10 and E14, of the reference instance. -/
theorem test_reference_entropy :
    referenceEntropy (histogram [0x61#8, 0x61#8, 0x62#8]) 3#32 = 0x3FED62ADF1EA257C#64 ∧
    referenceEntropy (histogram hello) 11#32 = 0x4006C3475A137D9D#64 := by decide +kernel

/-- X14: an unreadable byte is a fault of the completion; the hardware's outcome of R193 comes by the memory's turn, with the
fault recorded. -/
theorem test_unreadable_byte :
    let s := { startCommand .crc32 (operands 0x8000#32 4#32 0#32 0#32) with
      platform := ⟨0x40000000#32, [⟨0x8002, 1⟩], []⟩, turns := [.busError 0x8002#32] }
    stopped (exec .crc32 s) = some (.inl .unreadableDeclaredByte) ∧
    seen (step s) = some (0x00000304#32, 0#32, 0#32, 0x00008002#32) ∧
    (∃ t, step s = .next t ∧ t.recordedFault = some .unreadableDeclaredByte ∧ irq t = true) :=
  ⟨by decide +kernel, by decide +kernel, ⟨_, rfl, rfl, rfl⟩⟩

/-- A buffer that reaches into the window's first byte. -/
theorem test_window_is_side_effecting :
    stopped (exec .entropy (operands 0x3FFFFFFF#32 2#32 0#32 0#32)) = some (.inl .sideEffectingMemory) := by decide +kernel

/-! ## Requests: the errors of 95_test_vectors.md, 2.5 -/

/-- X1 and X6: ILLEGAL_OP comes first. -/
theorem test_request_illegal :
    seen (exec (.wrCmd 0#32) State.reset) = some (0x00000104#32, 0#32, 0#32, 0#32) ∧
    seen (exec (.wrCmd 0x13#32) (operands 0xFFFFFFF0#32 0x20#32 0#32 0#32)) = some (0x00000104#32, 0#32, 0#32, 0#32) := by decide

/-- X9, X10 and X12: CMP checks B with A_LEN, an empty operand passes, A is checked before B. -/
theorem test_request_range :
    seen (exec (.wrCmd 2#32) (operands 0x1000#32 4#32 0xFFFFFFFE#32 0#32)) = some (0x00000204#32, 0#32, 0#32, 0xFFFFFFFE#32) ∧
    seen (exec (.wrCmd 2#32) (operands 0x1000#32 0#32 0xFFFFFFFF#32 0xFFFFFFFF#32)) = some (0x00000001#32, 0#32, 0#32, 0#32) ∧
    seen (exec (.wrCmd 3#32) (operands 0xFFFFFFF0#32 0x20#32 0xFFFFFFFE#32 3#32)) =
      some (0x00000204#32, 0#32, 0#32, 0xFFFFFFF0#32) := by decide

/-! ## Register transactions: 95_test_vectors.md, 2.6 -/

/-- T1 and T2. -/
theorem test_id : answered (exec .rdId State.reset) = some (some 0x5A430007#32, 0#32) ∧
    answered (exec (.wrId 0#32) State.reset) = some (none, 0#32) := by decide

/-- T3: the write keeps bit 0 alone, and CTRL reads back as 1. -/
theorem test_ctrl : (∃ t, exec (.wrCtrl 0xFFFFFFFF#32) State.reset = .next t ∧ ctrlWord t = 0x00000001#32) ∧
    answered (exec .rdCtrl (operands 0#32 0#32 0#32 0#32)) = some (some 1#32, 0#32) := ⟨⟨_, rfl, rfl⟩, by decide⟩

/-- T6, T7 and T8. -/
theorem test_status_write_one_to_clear :
    seen (exec (.wrStatus 2#32) { State.reset with status := Status.completedOk true }) = some (0x00000008#32, 0#32, 0#32, 0#32) ∧
    seen (exec (.wrStatus 2#32) { State.reset with status := Status.completedErr 3#4 }) = some (0x00000304#32, 0#32, 0#32, 0#32) ∧
    seen (exec (.wrStatus 0xFFFFFFFF#32) { State.reset with status := Status.completedErr 3#4 }) =
      some (0x00000300#32, 0#32, 0#32, 0#32) := by decide

/-- RD STATUS after a successful SEARCH (R122), and T4: CMD reads 0. -/
theorem test_status_and_cmd_read :
    answered (exec .rdStatus { State.reset with status := Status.completedOk true }) = some (some 0x0000000A#32, 0x0000000A#32) ∧
    answered (exec .rdCmd { State.reset with status := Status.completedOk true }) = some (some 0#32, 0x0000000A#32) := by decide

/-- T10 and T11. -/
theorem test_operand_write :
    (∃ t, exec (.wrAAddr 0x12345678#32) State.reset = .next t ∧ t.aAddr = 0x12345678#32) ∧
    (∃ t, exec (.wrALen 5#32) (startCommand .crc32 (operands 0#32 9#32 0#32 0#32)) = .next t ∧ t.aLen = 9#32) :=
  ⟨⟨_, rfl, rfl⟩, ⟨_, rfl, rfl⟩⟩

/-- T13: a write of a result register is ignored; T14: a reserved slot reads 0. -/
theorem test_ignored_writes :
    seen (exec (.wrResult0 0#32) { State.reset with result0 := 0xCBF43926#32 }) = some (0#32, 0xCBF43926#32, 0#32, 0#32) ∧
    answered (exec .rdRsvd30 State.reset) = some (some 0#32, 0#32) := by decide

/-- T16: a one-byte access is refused; T17: masking keeps STATUS. -/
theorem test_subword_and_mask :
    stopped (step { State.reset with turns := [.access { width := 8, write := false, offset := 0#6, data := 0#32 }] }) =
      some (.inr .subwordAccess) ∧
    (∃ t, exec (.wrCtrl 0#32) { State.reset with irqEn := true, status := Status.completedOk false } = .next t ∧ irq t = false ∧
      t.status.toWord = 0x00000002#32) := ⟨by decide, ⟨_, rfl, rfl, by decide⟩⟩

/-- POLL reads STATUS with BUSY = 1, goes back to its read, and ends after a read with BUSY = 0. -/
theorem test_poll :
    let s := startCommand .crc32 (loaded 0x1000#32 digits 0#32 [])
    let h : HostContext := { program := poll 0, line := 0, vars := [] }
    (∃ t, hostRun [[], []] h s = .next ({ h with line := 0, vars := [(0, 0x00000001#32)] }, t)) ∧
    (∃ t, hostRun [[], []] h State.reset = .next ({ h with line := 2, vars := [(0, 0x00000000#32)] }, t)) := ⟨⟨_, rfl⟩, ⟨_, rfl⟩⟩

/-! ## The step and where it takes its instruction from -/

/-- A command's word and a transaction's code, placed after reset, run in the very next step. -/
theorem test_step_runs_the_placed_instruction :
    (∃ t, step (State.reset.withFetchWord 32 0x00000001) = .next t ∧ t.status.toWord = 0x00000002#32 ∧ t.turns = []) ∧
    answered (step (State.reset.withFetchWord 7 0b0000000)) = some (some 0x5A430007#32, 0#32) ∧
    seen (step (State.reset.withFetchWord 32 0x00000005)) = some (0x00000104#32, 0#32, 0#32, 0#32) :=
  ⟨⟨_, rfl, rfl, rfl⟩, by decide, by decide⟩

/-! ## Witnesses: a concrete state and operands that meet each statement's hypotheses -/

/-- A running CRC32 of "123456789", with the given turns. -/
def busy (turns : List Turn) : State := { startCommand .crc32 (loaded 0x1000#32 digits 0x2000#32 abc) with turns := turns }

theorem witness_EncodedInstructionsDecodeBack :
    Instr.wf (.wrCmd 0xFFFFFFFF#32) = true ∧ encode (.wrCmd 0xFFFFFFFF#32) = .bus 0x4C#7 0xFFFFFFFF#32 ∧
    encode .rdRsvd3C = .bus 0x3C#7 0#32 := by decide

theorem witness_AlignedTransactionCodesDecode :
    (0x7C#7).extractLsb' 0 2 = 0#2 ∧ (0x00#7).extractLsb' 0 2 = 0#2 ∧ (0x7D#7).extractLsb' 0 2 ≠ 0#2 ∧
    (0x03#7).extractLsb' 0 2 ≠ 0#2 := by decide

theorem witness_StepTakesTheDecodedTransaction :
    let a := wordAccess true 0x3C#6 5#32
    (busy [.access a]).turns = .access a :: [] ∧ (busy [.access a]).inReset = false ∧ a.width = 32 ∧
    decode (.bus (txnCode a.write a.offset) a.data) = .ok (.wrRsvd3C 5#32) := by decide

theorem witness_StepRunsTheLatchedCommand :
    (busy []).status.busy = true ∧ (busy []).seq.op = Command.crc32.op ∧ (busy []).turns = [] ∧
    (busy [.core]).turns = .core :: [] := by decide

theorem witness_IdleStepChangesNothing :
    State.reset.status.busy = false ∧ State.reset.turns = [] ∧
    { State.reset with turns := [Turn.core] }.status.busy = false ∧ { State.reset with turns := [Turn.core] }.turns = .core :: [] := by
  decide

theorem witness_SubwordAccessIsRefused :
    let a : Access := { width := 16, write := true, offset := 0x3C#6, data := 0#32 }
    let b := wordAccess true 0x3F#6 0#32
    let c := wordAccess true 0x3C#6 0#32
    (busy [.access a]).turns = .access a :: [] ∧ (busy [.access a]).inReset = false ∧ a.width ≠ 32 ∧
    b.offset.toNat % 4 ≠ 0 ∧ c.width = 32 ∧ c.offset.toNat % 4 = 0 := by decide

theorem witness_AccessDuringResetIsRefused :
    let s := { State.reset with inReset := true, turns := [.access (wordAccess false 0#6 0#32)] }
    s.turns = .access (wordAccess false 0#6 0#32) :: [] ∧ s.inReset = true ∧ ∃ t, exec .rdId State.reset = .next t :=
  ⟨rfl, rfl, ⟨_, rfl⟩⟩

/-- The last byte of memory, and the last declared byte of the running command. -/
theorem witness_MemoryTurnWritesOneByte :
    (busy [.memWrite 0xFFFFFFFF#32 0#8]).turns = .memWrite 0xFFFFFFFF#32 0#8 :: [] ∧
    (busy [.memWrite 0xFFFFFFFF#32 0#8]).mem.wf = true ∧ State.reset.status.busy = false ∧
    (busy []).status.busy = true ∧ (busy []).seq.op = Command.crc32.op ∧ declares .crc32 (busy []) 0x1008 = true ∧
    declares .crc32 (busy []) 0x1009 = false := by decide +kernel

/-- A release; a reset of an idle machine, and of a running command without a fault, with a byte in the window and one that is
unreadable, and after a race. -/
theorem witness_ResetInputResetsTheInstance :
    let r := { State.reset with inReset := true, turns := [Turn.resetInput false] }
    let s := busy [.resetInput true, .core]
    let w := { s with aAddr := 0x3FFFFFFF#32, aLen := 2#32 }
    let u := { s with platform := ⟨0x40000000#32, [⟨0x1000, 1⟩], []⟩ }
    r.turns = .resetInput false :: [] ∧ State.reset.status.busy = false ∧
    (s.turns = .resetInput true :: [.core] ∧ s.status.busy = true ∧ s.seq.op = Command.crc32.op ∧ commandFault .crc32 s = none ∧
      s.seq.raced = false) ∧
    (w.turns = .resetInput true :: [.core] ∧ w.status.busy = true ∧ w.seq.op = Command.crc32.op ∧
      declares .crc32 w 0x40000000 = true ∧ memIdempotent w.platform 0x40000000 = false) ∧
    (u.turns = .resetInput true :: [.core] ∧ u.status.busy = true ∧ u.seq.op = Command.crc32.op ∧
      declares .crc32 u 0x1000 = true ∧ memReadable u.platform 0x1000 = false) ∧
    (takeMemWrite 0x1000#32 7#8 s).seq.raced = true := by decide +kernel

/-- A reset that abandons a raced command records its race (R195, R221, log 18); one of an idle machine records nothing. -/
theorem test_reset_records_the_race :
    (takeResetInput true (takeMemWrite 0x1000#32 7#8 (busy []))).recordedFault = some .declaredByteWritten ∧
    (takeResetInput true State.reset).recordedFault = none := by decide +kernel

theorem witness_ResetStateReadsTheResetColumn :
    (Instr.rdErrAddr, 0#32) ∈ [(Instr.rdId, 0x5A430007#32), (.rdCtrl, 0#32), (.rdStatus, 0#32), (.rdCmd, 0#32), (.rdAAddr, 0#32),
      (.rdALen, 0#32), (.rdBAddr, 0#32), (.rdBLen, 0#32), (.rdResult0, 0#32), (.rdResult1, 0#32), (.rdErrAddr, 0#32)] := by decide

/-- The running machine meets the invariant, whatever turns are pending. -/
theorem busy_inv (turns : List Turn) : RunInv (busy turns) :=
  { memory := show (busy []).mem.wf = true by decide +kernel
    status := show (busy []).status.toWord ∈ statusValues by decide
    running := fun _ => ⟨.crc32, rfl, rfl⟩
    idle := fun h => nomatch h
    held := fun h => nomatch h
    errAddr := fun h => nomatch h
    errResults := fun h => nomatch h
    sentinel := fun h => nomatch h
    entropyHigh := show (0#32 : Word) ≤ 0x40200000#32 by decide }

theorem witness_StepKeepsTheInvariant :
    RunInv (busy [.access (wordAccess false 0x08#6 0#32)]) ∧ ∃ t, step (busy [.access (wordAccess false 0x08#6 0#32)]) = .next t :=
  ⟨busy_inv _, ⟨_, rfl⟩⟩

theorem witness_StatusWriteClearsWhereOneIsWritten : RunInv (busy []) ∧ (busy []).status.busy = true := ⟨busy_inv _, rfl⟩

theorem witness_OperandWritesWaitForIdle : State.reset.status.busy = false ∧ (busy []).status.busy = true := by decide

theorem witness_ResultReadsAreDrawnWhileBusy : State.reset.status.busy = false ∧ (busy []).status.busy = true ∧
    Instr.rdErrAddr ∈ [Instr.rdResult0, .rdResult1, .rdErrAddr] := by decide

theorem witness_SlotsWithoutStorageReadZero :
    Instr.rdRsvd3C ∈ [Instr.rdRsvd2C, .rdRsvd30, .rdRsvd34, .rdRsvd38, .rdRsvd3C, .rdCmd] ∧
    Instr.wrRsvd2C 7#32 ∈ [Instr.wrRsvd2C 7#32, .wrRsvd30 7#32, .wrRsvd34 7#32, .wrRsvd38 7#32, .wrRsvd3C 7#32] := by decide

theorem witness_ReadsChangeNoState : isRead .rdResult0 = true ∧ isRead .rdRsvd3C = true := by decide

theorem witness_TransactionFrame :
    isTransaction (.wrALen 5#32) = true ∧ (∃ t, exec (.wrALen 5#32) State.reset = .next t) ∧
    ∀ v, Instr.wrALen 5#32 ≠ .wrAAddr v := ⟨by decide, ⟨_, rfl⟩, fun _ h => nomatch h⟩

theorem witness_BusyRequestIsIgnored : (busy []).status.busy = true := by decide

theorem witness_IllegalWordReportsIllegalOp :
    State.reset.status.busy = false ∧ 0x00000000#32 ∉ [0x00000001#32, 0x00000002#32, 0x00000003#32, 0x00000004#32] ∧
    0x00000005#32 ∉ [0x00000001#32, 0x00000002#32, 0x00000003#32, 0x00000004#32] ∧
    0x80000001#32 ∉ [0x00000001#32, 0x00000002#32, 0x00000003#32, 0x00000004#32] := by decide

theorem witness_RangeErrorNamesTheFirstOperand :
    let s := operands 0xFFFFFFFF#32 2#32 0#32 0#32
    let t := operands 0xFFFFFFFD#32 3#32 0xFFFFFFFE#32 0#32
    let u := operands 0xFFFFFFFE#32 2#32 0xFFFFFFFE#32 3#32
    s.status.busy = false ∧ 2 ^ 32 < s.aAddr.toNat + s.aLen.toNat ∧
    t.aAddr.toNat + t.aLen.toNat ≤ 2 ^ 32 ∧ 2 ^ 32 < t.bAddr.toNat + t.aLen.toNat ∧
    u.aAddr.toNat + u.aLen.toNat ≤ 2 ^ 32 ∧ 2 ^ 32 < u.bAddr.toNat + u.bLen.toNat := by decide

theorem witness_AcceptedCommandStarts :
    let s := operands 0xFFFFFFFE#32 2#32 0xFFFFFFFE#32 2#32
    s.status.busy = false ∧ s.aAddr.toNat + s.aLen.toNat ≤ 2 ^ 32 ∧ s.bAddr.toNat + s.aLen.toNat ≤ 2 ^ 32 ∧
    s.bAddr.toNat + s.bLen.toNat ≤ 2 ^ 32 := by decide

/-- For ChecksumIsTheTableDrivenCrc and ChecksumIsTheBitwiseChecksum: the buffer ends at 2^32. -/
theorem witness_runs_crc32 : runs .crc32 (operands 0xFFFFFFF0#32 16#32 0#32 0#32) = true ∧
    runs .crc32 (loaded 0x1000#32 digits 0#32 []) = true := by decide +kernel

/-- For CompareFollowsTheFirstDifference and CompareAgreesWithBigEndianWords; equal, less and greater. -/
theorem witness_runs_cmp : runs .cmp (loaded 0x1000#32 abc 0x2000#32 abc) = true ∧
    runs .cmp (loaded 0x1000#32 abc 0x2000#32 abd) = true ∧ runs .cmp (loaded 0x1000#32 abd 0x2000#32 abc) = true ∧
    runs .cmp (loaded 0x1000#32 [] 0x2000#32 []) = true := by decide +kernel

theorem witness_CompareIsReflexiveAndAntisymmetric :
    let s := loaded 0x1000#32 abc 0x2000#32 abc
    runs .cmp s = true ∧ buffer s s.aAddr s.aLen = buffer s s.bAddr s.aLen := by decide +kernel

/-- Whether the needle occurs at an offset is a finite question. -/
theorem needleAt_iff (s : State) (i : Nat) :
    NeedleAt s i ↔ decide (1 ≤ s.bLen.toNat ∧ i + s.bLen.toNat ≤ s.aLen.toNat) && matchesAt s i = true := by
  simp [NeedleAt, matchesAt, and_assoc]

theorem witness_SearchFindsTheLeftmostMatch :
    let s := loaded 0x2000#32 abc 0x2100#32 [0x62#8, 0x63#8]
    let t := loaded 0x2000#32 abc 0x2100#32 []
    let u := loaded 0x2000#32 [0x61#8] 0x2100#32 [0x61#8, 0x61#8]
    let v := loaded 0x2000#32 [0x61#8] 0x2100#32 [0x62#8]
    (runs .search s = true ∧ NeedleAt s 1 ∧ ∀ j < 1, ¬ NeedleAt s j) ∧ (runs .search v = true ∧ ∀ i, ¬ NeedleAt v i) ∧
    (runs .search t = true ∧ t.bLen = 0#32) ∧ (runs .search u = true ∧ u.aLen.toNat < u.bLen.toNat) := by
  refine ⟨⟨by decide +kernel, ?_, ?_⟩, ⟨by decide +kernel, ?_⟩, by decide +kernel, by decide +kernel⟩
  · rw [needleAt_iff]; decide +kernel
  · intro j hj
    obtain rfl : j = 0 := by omega
    rw [needleAt_iff]; decide +kernel
  · rintro i ⟨-, h, hm⟩
    have hi : i + 1 ≤ 1 := h
    obtain rfl : i = 0 := by omega
    exact absurd (hm 0 (by decide)) (by decide +kernel)

theorem witness_EqualLengthSearchAgreesWithCompare :
    let s := loaded 0x2000#32 abc 0x2100#32 abc
    runs .search s = true ∧ s.aLen = s.bLen ∧ s.bLen ≠ 0#32 := by decide +kernel

/-- Q18: "abc" at 0x4000 and its last two bytes. -/
theorem witness_OverlappingNeedleIsFound :
    let s := { loaded 0x4000#32 abc 0#32 [] with bAddr := 0x4001#32, bLen := 2#32 }
    runs .search s = true ∧ s.bLen ≠ 0#32 ∧ s.bAddr.toNat = s.aAddr.toNat + 1 ∧ 1 + s.bLen.toNat ≤ s.aLen.toNat := by decide +kernel

theorem witness_SentinelIsNoOffset :
    let s := loaded 0x2000#32 abc 0x2100#32 [0x63#8]
    runs .search s = true ∧ ∃ t, exec .search s = .next t ∧ t.status.found = true :=
  ⟨by decide +kernel, ⟨_, rfl, by decide +kernel⟩⟩

/-- For HistogramCountsTheBytes and EntropyIsItsFunctionOfTheHistogram: both lengths. -/
theorem witness_runs_entropy : runs .entropy (loaded 0x3000#32 abc 0#32 []) = true ∧
    runs .entropy (loaded 0x3000#32 [] 0#32 []) = true ∧ (loaded 0x3000#32 abc 0#32 []).aLen ≠ 0#32 ∧
    (loaded 0x3000#32 [] 0#32 []).aLen = 0#32 := by decide +kernel

/-- Every counter is zero or the given count, as one Boolean. -/
def countersAre (h : Histogram) (c : Word) : Bool := h.toList.all (fun x => decide (x = 0#32 ∨ x = c))

theorem countersAre_iff {h : Histogram} {c : Word} : countersAre h c = true ↔ ∀ x ∈ h.toList, x = 0#32 ∨ x = c := by
  simp only [countersAre, List.all_eq_true, decide_eq_true_eq]

/-- One value (j = 0), and all 256 (j = 8). -/
theorem witness_EqualFrequenciesGiveTheExactEntropy :
    let one := countByte emptyHistogram 7#8
    let all : Histogram := Vector.replicate 256 3#32
    ((occurring one).length = 2 ^ 0 ∧ ∀ x ∈ one.toList, x = 0#32 ∨ x = 1#32) ∧
    ((occurring all).length = 2 ^ 8 ∧ ∀ x ∈ all.toList, x = 0#32 ∨ x = 3#32) ∧
    [0x0000000000000000#64, 0x3FF0000000000000#64, 0x4000000000000000#64, 0x4008000000000000#64, 0x4010000000000000#64,
      0x4014000000000000#64, 0x4018000000000000#64, 0x401C000000000000#64, 0x4020000000000000#64][8]? =
        some 0x4020000000000000#64 :=
  ⟨⟨by decide +kernel, countersAre_iff.mp (by decide +kernel)⟩, ⟨by decide +kernel, countersAre_iff.mp (by decide +kernel)⟩, rfl⟩

theorem witness_EntropyGrowsWithEquallyFrequentValues :
    let h := histogram [0x61#8, 0x62#8, 0x63#8]
    let h' := histogram [0x61#8, 0x62#8, 0x63#8, 0x64#8, 0x65#8]
    (∀ x ∈ h.toList, x = 0#32 ∨ x = 1#32) ∧ (∀ x ∈ h'.toList, x = 0#32 ∨ x = 1#32) ∧
    (occurring h).length < (occurring h').length :=
  ⟨countersAre_iff.mp (by decide +kernel), countersAre_iff.mp (by decide +kernel), by decide +kernel⟩

/-- Some bound holds: there are finitely many histograms and lengths. -/
theorem entropyWithin_some : ∃ bound, EntropyWithin bound := by
  have hfin : Finite (Histogram × Word) := by
    have hv : Finite Histogram := Finite.of_injective (fun (h : Histogram) (i : Fin 256) => (h[i]).toFin) (fun h h' e => by
      apply Vector.ext
      intro i hi
      exact BitVec.eq_of_toFin_eq (congrFun e ⟨i, hi⟩))
    have hw : Finite Word := Finite.of_injective BitVec.toFin (fun _ _ => BitVec.eq_of_toFin_eq)
    infer_instance
  obtain ⟨b, hb⟩ := (Set.finite_range (fun p : Histogram × Word => |binary64Value (entropyFn p.1 p.2) - realEntropy p.1 p.2|)).bddAbove
  exact ⟨b, fun h n _ _ => hb ⟨(h, n), rfl⟩⟩

theorem witness_EntropyResultKeepsTheAssumedBound :
    let s := loaded 0x3000#32 abc 0#32 []
    (∃ bound, EntropyWithin bound) ∧ runs .entropy s = true ∧ s.aLen ≠ 0#32 :=
  ⟨entropyWithin_some, by decide +kernel, by decide⟩

/-- E10 and E11: "aab" and "aba". -/
theorem witness_EntropyIgnoresByteOrder :
    let s := loaded 0x3000#32 [0x61#8, 0x61#8, 0x62#8] 0#32 []
    let s' := loaded 0x3100#32 [0x61#8, 0x62#8, 0x61#8] 0#32 []
    runs .entropy s = true ∧ runs .entropy s' = true ∧ (buffer s s.aAddr s.aLen).Perm (buffer s' s'.aAddr s'.aLen) := by
  decide +kernel

theorem witness_ResultsDependOnlyOnOperandsAndBytes :
    let s := loaded 0x1000#32 [0x61#8] 0x2000#32 []
    let s' := { loaded 0x1000#32 [0x61#8] 0x2000#32 [5#8] with result0 := 9#32 }
    runs .crc32 s = true ∧ runs .crc32 s' = true ∧ usedOperands .crc32 s = usedOperands .crc32 s' ∧
    ∀ a, declares .crc32 s a = true → s.mem.read a = s'.mem.read a := by
  refine ⟨by decide +kernel, by decide +kernel, by decide, fun a h => ?_⟩
  obtain rfl : a = 0x1000 := by
    simp [declares, usedOperands, Operand.declares, loaded] at h
    omega
  decide +kernel

theorem witness_CommandFrame : ∃ t, exec Command.entropy.toInstr (loaded 0x3000#32 abc 0#32 []) = .next t ∧
    Command.entropy ≠ .crc32 ∧ Command.entropy ≠ .search ∧ Command.crc32 ≠ .entropy := ⟨_, rfl, by decide⟩

/-- A running CRC32 whose last byte, at the top of memory, cannot be read. -/
def holed (turns : List Turn) : State :=
  { startCommand .crc32 (operands 0xFFFFFFFC#32 4#32 0#32 0#32) with
    platform := ⟨0x40000000#32, [⟨0xFFFFFFFF, 1⟩], []⟩, turns := turns }

/-- The unreadable byte; a readable declared byte beside it; a byte that is not declared; and an idle machine. -/
theorem witness_ReportedBusErrorCompletes :
    let s := holed [.busError 0xFFFFFFFF#32]
    (s.turns = .busError 0xFFFFFFFF#32 :: [] ∧ s.status.busy = true ∧ s.seq.op = Command.crc32.op ∧
      declaredAll .crc32 s (memIdempotent s.platform) = true ∧ s.seq.raced = false ∧ s.seq.reads = .answered ∧
      declares .crc32 s (0xFFFFFFFF#32).toNat = true ∧ memReadable s.platform (0xFFFFFFFF#32).toNat = false) ∧
    memReadable s.platform (0xFFFFFFFE#32).toNat = true ∧ declares .crc32 s (0xFFFFFFFB#32).toNat = false ∧
    State.reset.status.busy = false := by decide +kernel

theorem witness_UnreadableDeclaredByteFaults :
    let s := holed []
    rangeFailure .crc32 s = none ∧ declaredAll .crc32 s (memIdempotent s.platform) = true ∧ s.seq.raced = false ∧
    declares .crc32 s 0xFFFFFFFF = true ∧ memReadable s.platform 0xFFFFFFFF = false := by decide +kernel

theorem witness_DeclaredByteWrittenWhileBusyFaults :
    let s := busy [.memWrite 0x1008#32 0#8, .core]
    s.turns = .memWrite 0x1008#32 0#8 :: .core :: [] ∧ s.status.busy = true ∧ s.seq.op = Command.crc32.op ∧
    rangeFailure .crc32 s = none ∧ declaredAll .crc32 s (memIdempotent s.platform) = true ∧
    declares .crc32 s (0x1008#32).toNat = true := by decide +kernel

/-- A listed region's byte, and the window's first and last bytes. -/
theorem witness_SideEffectingDeclaredByteFaults :
    let s := { operands 0x1000#32 1#32 0#32 0#32 with platform := ⟨0x40000000#32, [], [⟨0x1000, 1⟩]⟩ }
    let t := operands 0x3FFFFFFF#32 2#32 0#32 0#32
    let u := operands 0x4000003F#32 1#32 0#32 0#32
    (rangeFailure .crc32 s = none ∧ declares .crc32 s 0x1000 = true ∧ memIdempotent s.platform 0x1000 = false) ∧
    (rangeFailure .crc32 t = none ∧ declares .crc32 t 0x40000000 = true ∧ t.platform.zcBase.toNat ≤ 0x40000000 ∧
      0x40000000 < t.platform.zcBase.toNat + 0x40) ∧
    (rangeFailure .crc32 u = none ∧ declares .crc32 u 0x4000003F = true ∧ u.platform.zcBase.toNat ≤ 0x4000003F ∧
      0x4000003F < u.platform.zcBase.toNat + 0x40) := by decide +kernel

theorem witness_UnansweredReadLeavesTheCommandRunning :
    let t := busy [.noAnswer 0x1000#32]
    let s := { busy [] with seq := { (busy []).seq with reads := .unanswered 0x1000#32 } }
    (t.turns = .noAnswer 0x1000#32 :: [] ∧ t.status.busy = true ∧ t.seq.op = Command.crc32.op ∧
      declares .crc32 t (0x1000#32).toNat = true ∧ declares .crc32 t (0x0FFF#32).toNat = false) ∧
    (s.turns = [] ∧ { s with turns := [.core] }.turns.head? = some .core) ∧ s.status.busy = true ∧ s.seq.op = Command.crc32.op ∧
    rangeFailure .crc32 s = none ∧
    declaredAll .crc32 s (memIdempotent s.platform) = true ∧ s.seq.raced = false ∧
    declaredAll .crc32 s (memReadable s.platform) = true ∧ s.seq.reads = .unanswered 0x1000#32 ∧
    declares .crc32 s (0x1000#32).toNat = true := by decide +kernel

theorem witness_OnlyAgentsWriteMemory :
    (∃ t, exec (.wrCmd 1#32) State.reset = .next t) ∧ (∃ t, step (busy [.resetInput true]) = .next t) ∧
    ∀ a v, (busy [.resetInput true]).turns.head? ≠ some (.memWrite a v) := ⟨⟨_, rfl⟩, ⟨_, rfl⟩, fun _ _ h => nomatch h⟩

theorem witness_ResultsStayUntilTheNextRequest :
    let s := { State.reset with turns := [.access (wordAccess true 0x08#6 6#32)] }
    s.status.busy = false ∧ (∃ t, step s = .next t) ∧ s.turns.head? ≠ some (.resetInput true) ∧
    ∀ a v, s.turns.head? = some (.access a) → decodeAccess a ≠ .ok (.wrCmd v) := by
  refine ⟨rfl, ⟨_, rfl⟩, by decide, fun a v h => ?_⟩
  obtain rfl : wordAccess true 0x08#6 6#32 = a := by simpa using h
  exact fun h => nomatch h

theorem witness_BusyChangesOnlyByRequestCompletionOrReset :
    (∃ s t : State, s.status.busy = false ∧ step s = .next t ∧ t.status.busy = true) ∧
    (∃ s t : State, s.status.busy = true ∧ step s = .next t ∧ t.status.busy = false) :=
  ⟨⟨{ State.reset with turns := [.access (wordAccess true 0x0C#6 1#32)] }, _, rfl, rfl, rfl⟩,
    ⟨busy [.resetInput true], _, rfl, rfl, rfl⟩⟩

theorem witness_TransactionsDoNotDisturbTheRunningCommand :
    RunInv (busy []) ∧ (busy []).status.busy = true ∧ isTransaction (.wrStatus 6#32) = true ∧
    ∃ t, exec (.wrStatus 6#32) (busy []) = .next t := ⟨busy_inv _, rfl, by decide, ⟨_, rfl⟩⟩

/-- A running command with IRQ_EN = 1, which the core's turn completes, and one that a bus error ends. -/
theorem witness_InterruptFollowsCompletion :
    let s := operands 0x1000#32 4#32 0#32 0#32
    let d := { s with status := Status.completedOk false }
    let b := { busy [.core] with irqEn := true }
    let u := { holed [.busError 0xFFFFFFFF#32] with irqEn := true }
    State.reset.irqEn = false ∧ (RunInv (busy []) ∧ (busy []).status.busy = true) ∧ (s.irqEn = true ∧ s.status.busy = false) ∧
    runs .crc32 s = true ∧ (irq d = true ∧ d.status.done = true) ∧
    (b.irqEn = true ∧ b.status.busy = true ∧ ∃ t, step b = .next t ∧ t.status.busy = false ∧ b.turns.head? ≠ some (.resetInput true)) ∧
    (u.irqEn = true ∧ u.status.busy = true ∧ ∃ t, step u = .next t ∧ t.status.busy = false ∧ u.turns.head? ≠ some (.resetInput true)) :=
  ⟨rfl, ⟨busy_inv _, rfl⟩, ⟨rfl, rfl⟩, by decide +kernel, ⟨rfl, rfl⟩, ⟨rfl, rfl, ⟨_, rfl, rfl, by decide⟩⟩,
    ⟨rfl, rfl, ⟨_, rfl, rfl, by decide⟩⟩⟩

end Sys2Proof.Tests
end

section
/-! The results of a command as a function of its operands and declared bytes (R10). -/

namespace Sys2Proof.Machine

open Sys2Proof.Safety

/-- The rule that gives a command's results (R140, R150, R160, R170). -/
def completionOf : Command → State → Completion
  | .crc32 => crcCompletion
  | .cmp => cmpCompletion
  | .search => searchCompletion
  | .entropy => entropyCompletion

/-- A command's instruction is the run of the command with its own rule. -/
theorem exec_toInstr (c : Command) (s : State) : exec c.toInstr s = runCommand c (completionOf c) s := by
  cases c <;> rfl

/-- A command that runs completes with what its rule gives (R110, R112). -/
theorem exec_of_runs {c : Command} {s : State} (h : runs c s = true) :
    exec c.toInstr s = .next (finish (completionOf c s) s) :=
  (exec_toInstr c s).trans (runCommand_of_runs h)

/-- The bytes of an operand's buffer are the same in both states. -/
def SameBytes (s s' : State) (o : Operand) : Prop :=
  ∀ i < o.len.toNat, memRead s (o.addr.toNat + i) = memRead s' (o.addr.toNat + i)

/-- States that agree on a command's declared bytes agree on the buffer of each operand it uses (R107). -/
theorem sameBytes_of_declares {c : Command} {s s' : State} {o : Operand}
    (h : ∀ a, declares c s a = true → s.mem.read a = s'.mem.read a) (ho : o ∈ usedOperands c s) : SameBytes s s' o :=
  fun i hi => h _ (declares_iff.mpr ⟨o, ho, i, hi, rfl⟩)

/-- Two completions report the same results; what their scans leave in the sequencer may differ. -/
structure SameResults (k k' : Completion) : Prop where
  r0 : k.r0 = k'.r0
  r1 : k.r1 = k'.r1
  found : k.found = k'.found

theorem buffer_congr {s s' : State} {addr addr' len len' : Word} (haddr : addr = addr') (hlen : len = len')
    (h : SameBytes s s' ⟨addr, len⟩) : buffer s addr len = buffer s' addr' len' := by
  subst haddr hlen
  exact List.map_congr_left fun i hi => h i (List.mem_range.mp hi)

/-- CRC32's results are read off the bytes of operand A alone (R143). -/
theorem crcCompletion_congr {s s' : State} (hbuf : buffer s s.aAddr s.aLen = buffer s' s'.aAddr s'.aLen) :
    SameResults (crcCompletion s) (crcCompletion s') := by
  constructor <;> simp only [crcCompletion, hbuf]

/-- ENTROPY's results are read off the length and the bytes of operand A alone (R170). -/
theorem entropyCompletion_congr {s s' : State} (hlen : s.aLen = s'.aLen)
    (hbuf : buffer s s.aAddr s.aLen = buffer s' s'.aAddr s'.aLen) :
    SameResults (entropyCompletion s) (entropyCompletion s') := by
  have hent : entropyOf (histogram (buffer s s.aAddr s.aLen)) s.aLen =
      entropyOf (histogram (buffer s' s'.aAddr s'.aLen)) s'.aLen := by rw [hbuf, hlen]
  constructor <;> simp only [entropyCompletion, hent]

theorem firstDifference_congr {s s' : State} {a b len : Word} (ha : SameBytes s s' ⟨a, len⟩)
    (hb : SameBytes s s' ⟨b, len⟩) : firstDifference s a b len = firstDifference s' a b len :=
  List.find?_congr fun i hi => by rw [ha i (List.mem_range.mp hi), hb i (List.mem_range.mp hi)]

/-- The first difference lies in the buffers (R151). -/
theorem firstDifference_lt {s : State} {a b len : Word} {i : Nat} (h : firstDifference s a b len = some i) :
    i < len.toNat :=
  List.mem_range.mp (List.mem_of_find?_eq_some h)

theorem compareResult_congr {s s' : State} {a b len : Word} (ha : SameBytes s s' ⟨a, len⟩)
    (hb : SameBytes s s' ⟨b, len⟩) : compareResult s a b len = compareResult s' a b len := by
  unfold compareResult
  rw [← firstDifference_congr ha hb]
  cases hd : firstDifference s a b len with
  | none => rfl
  | some i =>
    have hi := firstDifference_lt hd
    simp only [ha i hi, hb i hi]

theorem cmpCompletion_congr {s s' : State} (haAddr : s.aAddr = s'.aAddr) (haLen : s.aLen = s'.aLen)
    (hbAddr : s.bAddr = s'.bAddr) (hA : SameBytes s s' ⟨s.aAddr, s.aLen⟩) (hB : SameBytes s s' ⟨s.bAddr, s.aLen⟩) :
    SameResults (cmpCompletion s) (cmpCompletion s') := by
  have hres : compareResult s s.aAddr s.bAddr s.aLen = compareResult s' s'.aAddr s'.bAddr s'.aLen := by
    rw [compareResult_congr hA hB, haAddr, haLen, hbAddr]
  exact ⟨hres, rfl, rfl⟩

/-- A match at an offset, byte by byte (R162). -/
theorem matchesAt_iff {s : State} {i : Nat} :
    matchesAt s i = true ↔
      ∀ j < s.bLen.toNat, memRead s (s.aAddr.toNat + i + j) = memRead s (s.bAddr.toNat + j) := by
  simp [matchesAt]

/-- A needle that lies inside the haystack matches in both states or in neither: the bytes compared are the buffers' own. -/
theorem matchesAt_congr {s s' : State} {i : Nat} (haAddr : s.aAddr = s'.aAddr) (hbAddr : s.bAddr = s'.bAddr)
    (hbLen : s.bLen = s'.bLen) (hA : SameBytes s s' ⟨s.aAddr, s.aLen⟩) (hB : SameBytes s s' ⟨s.bAddr, s.bLen⟩)
    (hi : i + s.bLen.toNat ≤ s.aLen.toNat) : matchesAt s i = matchesAt s' i := by
  rw [Bool.eq_iff_iff, matchesAt_iff, matchesAt_iff, ← haAddr, ← hbAddr, ← hbLen]
  refine forall₂_congr fun j hj => ?_
  have hhay := hA (i + j) (show i + j < s.aLen.toNat by omega)
  rw [← Nat.add_assoc] at hhay
  rw [hhay, hB j hj]

theorem searchOffset_congr {s s' : State} (haAddr : s.aAddr = s'.aAddr) (haLen : s.aLen = s'.aLen)
    (hbAddr : s.bAddr = s'.bAddr) (hbLen : s.bLen = s'.bLen) (hA : SameBytes s s' ⟨s.aAddr, s.aLen⟩)
    (hB : SameBytes s s' ⟨s.bAddr, s.bLen⟩) : searchOffset s = searchOffset s' := by
  unfold searchOffset
  rw [← haLen, ← hbLen]
  split
  · rfl
  · refine List.find?_congr fun i hi => matchesAt_congr haAddr hbAddr hbLen hA hB ?_
    rw [List.mem_range] at hi
    omega

/-- SEARCH's results are read off the offset found alone (R161). -/
theorem searchCompletion_congr {s s' : State} (h : searchOffset s = searchOffset s') :
    SameResults (searchCompletion s) (searchCompletion s') := by
  unfold searchCompletion
  rw [← h]
  cases searchOffset s <;> exact ⟨rfl, rfl, rfl⟩

/-- A command's rule gives the same results in two states with the same used operands and the same declared bytes (R10). -/
theorem completionOf_congr {c : Command} {s s' : State} (hops : usedOperands c s = usedOperands c s')
    (hbytes : ∀ a, declares c s a = true → s.mem.read a = s'.mem.read a) :
    SameResults (completionOf c s) (completionOf c s') := by
  have hsame : ∀ o ∈ usedOperands c s, SameBytes s s' o := fun o ho => sameBytes_of_declares hbytes ho
  cases c <;> simp only [usedOperands, List.cons.injEq, Operand.mk.injEq, and_true, List.forall_mem_cons] at hops hsame
  case crc32 =>
    obtain ⟨haAddr, haLen⟩ := hops
    obtain ⟨hA, -⟩ := hsame
    exact crcCompletion_congr (buffer_congr haAddr haLen hA)
  case cmp =>
    obtain ⟨⟨haAddr, haLen⟩, hbAddr, -⟩ := hops
    obtain ⟨hA, hB, -⟩ := hsame
    exact cmpCompletion_congr haAddr haLen hbAddr hA hB
  case search =>
    obtain ⟨⟨haAddr, haLen⟩, hbAddr, hbLen⟩ := hops
    obtain ⟨hA, hB, -⟩ := hsame
    exact searchCompletion_congr (searchOffset_congr haAddr haLen hbAddr hbLen hA hB)
  case entropy =>
    obtain ⟨haAddr, haLen⟩ := hops
    obtain ⟨hA, -⟩ := hsame
    exact entropyCompletion_congr haLen (buffer_congr haAddr haLen hA)

/-- Settles O49: both runs complete with their rule's results, which the used operands and declared bytes fix. -/
theorem resultsDependOnlyOnOperandsAndBytes : Obligations.ResultsDependOnlyOnOperandsAndBytes := by
  intro c s s' hrun hrun' hops hbytes
  have hres := completionOf_congr hops hbytes
  exact ⟨_, _, exec_of_runs hrun, exec_of_runs hrun', hres.r0, hres.r1, rfl, congrArg Status.completedOk hres.found⟩

end Sys2Proof.Machine
end

section
/-! Memory belongs to the agents: every turn but an agent's write leaves it as it was (R58). -/

namespace Sys2Proof.Machine

/-- No instruction writes memory. -/
theorem exec_mem {i : Instr} {s t : State} (h : exec i s = .next t) : t.mem = s.mem :=
  (exec_frame h).1

/-- The core's turn leaves memory alone, whether a command completes, ends with an error or nothing runs. -/
theorem takeCore_mem {s t : State} (h : takeCore s = .next t) : t.mem = s.mem := by
  rcases takeCore_cases h with ⟨c, -, -, hexec⟩ | ⟨-, -, rfl⟩ | ⟨-, rfl⟩
  · exact exec_mem hexec
  · exact completeErr_mem errIllegalOp 0#32 s
  · rfl

/-- A bus error leaves memory alone, whether or not it ends the running command. -/
theorem takeBusError_mem {a : Word} {s t : State} (h : takeBusError a s = .next t) : t.mem = s.mem := by
  rcases takeBusError_cases h with rfl | ⟨c, -, -, -, -, rfl⟩
  · rfl
  · exact completeErr_mem errBus a s

@[simp] theorem takeNoAnswer_mem (a : Word) (s : State) : (takeNoAnswer a s).mem = s.mem := by
  rw [takeNoAnswer_frame]

@[simp] theorem takeResetInput_mem (asserted : Bool) (s : State) : (takeResetInput asserted s).mem = s.mem := by
  cases asserted
  case false => rfl
  case true => exact resetInstance_mem s

/-- A step leaves memory as it was, or it takes an agent's write and the written byte is the only change to memory. -/
theorem step_mem_cases {s t : State} (h : step s = .next t) :
    t.mem = s.mem ∨ ∃ a v, s.turns.head? = some (.memWrite a v) ∧ t.mem = s.mem.write a.toNat v := by
  rcases step_cases h with ⟨-, hcore⟩ | ⟨ts, -, hcore⟩ | ⟨a, i, ts, -, -, -, hexec⟩ | ⟨a, v, ts, hturns, rfl⟩ |
    ⟨a, ts, -, hbus⟩ | ⟨a, ts, -, rfl⟩ | ⟨b, ts, -, rfl⟩
  · exact .inl (takeCore_mem hcore)
  · exact .inl (takeCore_mem hcore :)
  · exact .inl (exec_mem hexec :)
  · exact .inr ⟨a, v, by simp [hturns], by simp⟩
  · exact .inl (takeBusError_mem hbus :)
  · exact .inl (by simp)
  · exact .inl (by simp)

/-- Settles O56: by cases on the turn a step takes, only an agent's write can touch memory. -/
theorem onlyAgentsWriteMemory : Obligations.OnlyAgentsWriteMemory := by
  refine ⟨fun i s t => exec_mem, fun s t hstep hnoWrite => ?_⟩
  rcases step_mem_cases hstep with hmem | ⟨a, v, hwrite, -⟩
  · exact hmem
  · exact absurd hwrite (hnoWrite a v)

end Sys2Proof.Machine
end

section
/-! The host's access to the window: which accesses decode (R82, R130), and what a turn does while nothing runs. -/

namespace Sys2Proof.Machine

open Sys2Proof.Safety

/-- The W bit lies above OFFSET, so a TXN code is aligned exactly when its offset is (R82). -/
theorem txnCode_mod_four (write : Bool) (offset : BitVec 6) :
    (txnCode write offset).toNat % 4 = offset.toNat % 4 := by
  rw [txnCode, BitVec.toNat_append, ← Nat.shiftLeft_add_eq_or_of_lt offset.isLt, Nat.shiftLeft_eq]
  omega

/-- The transaction map has an entry for every aligned code and for no other (R85, R87). -/
theorem decodeTxn_ok_iff (txn : BitVec 7) (data : Word) :
    (∃ i, decodeTxn txn data = .ok i) ↔ txn.toNat % 4 = 0 := by
  have hlt := txn.isLt
  unfold decodeTxn
  split
  case h_33 =>
    simp only [imp_false] at *
    have hmisaligned : txn.toNat % 4 ≠ 0 := by omega
    simp [hmisaligned]
  all_goals
    rename_i hcode
    simp [hcode]

/-- The accesses the window defines are the aligned 32-bit ones (R82, R130). -/
theorem decodeAccess_ok_iff (a : Access) :
    (∃ i, decodeAccess a = .ok i) ↔ a.width = 32 ∧ a.offset.toNat % 4 = 0 := by
  by_cases hwidth : a.width = 32
  · simp [decodeAccess, decode, hwidth, decodeTxn_ok_iff, txnCode_mod_four]
  · simp [decodeAccess, hwidth]

/-- The transaction map holds no command word (R80). -/
theorem decodeTxn_isTransaction {txn : BitVec 7} {data : Word} {i : Instr} (h : decodeTxn txn data = .ok i) :
    isTransaction i = true := by
  unfold decodeTxn at h
  split at h <;> cases h <;> rfl

/-- A host reaches the four commands through a CMD write only (R80, R100). -/
theorem decodeAccess_isTransaction {a : Access} {i : Instr} (h : decodeAccess a = .ok i) : isTransaction i = true := by
  unfold decodeAccess at h
  split at h
  · exact decodeTxn_isTransaction h
  · cases h

theorem step_of_access {s : State} {a : Access} {rest : List Turn} (hturns : s.turns = .access a :: rest) :
    step s = takeAccess a { s with turns := rest } := by
  simp [step, advance, hturns, takeTurn]

theorem takeAccess_of_ok {a : Access} {i : Instr} {s : State} (hreset : s.inReset = false) (h : decodeAccess a = .ok i) :
    takeAccess a s = exec i s := by
  simp [takeAccess, hreset, h]

/-- Whatever the decoder's reason, the step gives the same refusal (R130). -/
theorem takeAccess_of_not_ok {a : Access} {s : State} (hreset : s.inReset = false) (h : ¬∃ i, decodeAccess a = .ok i) :
    takeAccess a s = .refused .subwordAccess := by
  cases hd : decodeAccess a with
  | ok i => exact absurd ⟨i, hd⟩ h
  | error e => simp [takeAccess, hreset, hd]

/-- Settles O8: the decoder accepts exactly the aligned 32-bit accesses, and the step runs what is accepted and refuses the rest. -/
theorem subwordAccessIsRefused : Obligations.SubwordAccessIsRefused := by
  intro s a rest hturns hreset
  rw [step_of_access hturns]
  constructor
  · intro hbad
    refine takeAccess_of_not_ok hreset fun hok => ?_
    obtain ⟨hwidth, haligned⟩ := (decodeAccess_ok_iff a).mp hok
    exact hbad.elim (· hwidth) (· haligned)
  · intro hwidth haligned
    obtain ⟨i, hi⟩ := (decodeAccess_ok_iff a).mpr ⟨hwidth, haligned⟩
    exact ⟨i, hi, takeAccess_of_ok hreset hi⟩

/-- The engine's turn is empty while nothing runs (R210, R223). -/
theorem takeCore_of_idle {s : State} (h : s.status.busy = false) : takeCore s = .next s := by
  simp [takeCore, h]

theorem takeBusError_of_idle {s : State} (h : s.status.busy = false) (a : Word) : takeBusError a s = .next s := by
  simp [takeBusError, runningCommand_of_idle h]

theorem takeNoAnswer_of_idle {s : State} (h : s.status.busy = false) (a : Word) : takeNoAnswer a s = s := by
  simp [takeNoAnswer, runningDeclares_of_idle h]

end Sys2Proof.Machine
end

section
/-! The register transactions: what each read answers, what each write changes, and how long a completion's results stay
(40_command.md, section 3; R115). -/

namespace Sys2Proof.Machine

open Sys2Proof.Safety

/-! ## STATUS as a word (R122) -/

/-- The four flags are bits 3:0 (R25 to R28). -/
theorem Status.toWord_flags (t : Status) :
    t.toWord.getLsbD 0 = t.busy ∧ t.toWord.getLsbD 1 = t.done ∧ t.toWord.getLsbD 2 = t.err ∧
      t.toWord.getLsbD 3 = t.found := by
  simp only [Status.toWord, BitVec.getLsbD_setWidth, BitVec.getLsbD_append, -Nat.reduceAdd]
  simp

/-- Above the flags only bits 11:8 hold a value, the code (R29, R30). -/
theorem Status.getLsbD_toWord_of_four_le (t : Status) {i : Nat} (hi : 4 ≤ i) :
    t.toWord.getLsbD i = (decide (8 ≤ i) && t.errcode.getLsbD (i - 8)) := by
  simp only [Status.toWord, BitVec.getLsbD_setWidth, BitVec.getLsbD_append, -Nat.reduceAdd]
  have habove : 32 ≤ i → t.errcode.getLsbD (i - 8) = false := fun h => t.errcode.getLsbD_of_ge _ (by omega)
  grind

theorem Status.toWord_errcode (t : Status) : t.toWord.extractLsb' 8 4 = t.errcode := by
  ext i hi
  simp [t.getLsbD_toWord_of_four_le (show 4 ≤ 8 + i by omega), hi]

/-- Bits 7:4 of STATUS hold no value (R30). -/
theorem Status.toWord_low_zeros (t : Status) : t.toWord.extractLsb' 4 4 = 0#4 := by
  ext i hi
  simp [t.getLsbD_toWord_of_four_le (show 4 ≤ 4 + i by omega), show ¬8 ≤ 4 + i by omega]

/-- Bits 31:12 of STATUS hold no value (R30). -/
theorem Status.toWord_high_zeros (t : Status) : t.toWord.extractLsb' 12 20 = 0#20 := by
  ext i hi
  simp [t.getLsbD_toWord_of_four_le (show 4 ≤ 12 + i by omega), show 4 ≤ 12 + i - 8 by omega]

/-- Settles O17: the word read is STATUS as its layout lemmas have it, and only the response changes. -/
theorem statusReadsItsLayout : Obligations.StatusReadsItsLayout := by
  intro s
  obtain ⟨hbusy, hdone, herr, hfound⟩ := s.status.toWord_flags
  exact ⟨s.status.toWord, rfl, hbusy, hdone, herr, hfound, s.status.toWord_low_zeros, s.status.toWord_errcode,
    s.status.toWord_high_zeros⟩

/-! ## What each slot answers and takes -/

/-- CTRL reads as 1 or 0 (R24). -/
theorem ctrlWord_eq (s : State) : ctrlWord s = if s.irqEn then 0x00000001#32 else 0x00000000#32 := by
  cases h : s.irqEn <;> simp [ctrlWord, h]

theorem writeOperand_of_idle {s : State} (h : s.status.busy = false) (written : State) : writeOperand written s = written := by
  simp [writeOperand, h]

theorem writeOperand_of_busy {s : State} (h : s.status.busy = true) (written : State) : writeOperand written s = s := by
  simp [writeOperand, h]

theorem requestCommand_of_busy {s : State} (h : s.status.busy = true) (w : Word) : requestCommand w s = s := by
  simp [requestCommand, h]

/-- A read of a result register answers, stored or drawn, and may advance the count of draws (R127). -/
theorem respondResult_eq (stored : Word) (s : State) :
    ∃ v n, respondResult stored s = { s with response := some v, draws := n } := by
  cases hbusy : s.status.busy
  case false => exact ⟨stored, s.draws, by simp [respondResult, respond, hbusy]⟩
  case true => exact ⟨Config.unspecifiedWord s.draws, s.draws + 1, by simp [respondResult, respond, hbusy]⟩

/-- A read answers with a word of the state, or with the value of a result register (R120 to R129). -/
theorem exec_read_cases {i : Instr} (s : State) (h : isRead i = true) :
    ∃ v, exec i s = .next (respond v s) ∨ exec i s = .next (respondResult v s) := by
  cases i
  case rdResult0 | rdResult1 | rdErrAddr => exact ⟨_, .inr rfl⟩
  case rdId | rdCtrl | rdStatus | rdCmd | rdAAddr | rdALen | rdBAddr | rdBLen | rdRsvd2C | rdRsvd30 | rdRsvd34 |
      rdRsvd38 | rdRsvd3C => exact ⟨_, .inl rfl⟩
  all_goals cases h

/-- Settles O15: RD ID responds with the constant whatever the state, and WR ID gives the state back. -/
theorem idReadsItsConstant : Obligations.IdReadsItsConstant :=
  fun _ _ => ⟨rfl, rfl⟩

/-- Settles O16: a read answers with CTRL's word, and the write does not look at BUSY. -/
theorem controlHoldsIrqEnable : Obligations.ControlHoldsIrqEnable :=
  fun s _ => ⟨by rw [← ctrlWord_eq s]; rfl, rfl⟩

/-- Settles O19: the four reads respond with the register's field, without looking at BUSY. -/
theorem operandRegistersRead : Obligations.OperandRegistersRead :=
  fun _ => ⟨rfl, rfl, rfl, rfl⟩

/-- Settles O20: each of the four writes is a `writeOperand`, which BUSY decides. -/
theorem operandWritesWaitForIdle : Obligations.OperandWritesWaitForIdle := by
  intro s v
  refine ⟨fun hidle => ?_, fun hbusy => ?_⟩
  · have taken := writeOperand_of_idle hidle
    exact ⟨congrArg _ (taken _), congrArg _ (taken _), congrArg _ (taken _), congrArg _ (taken _)⟩
  · have ignored := writeOperand_of_busy hbusy
    exact ⟨congrArg _ (ignored _), congrArg _ (ignored _), congrArg _ (ignored _), congrArg _ (ignored _)⟩

/-- Settles O22: the meaning of the three writes is the state itself. -/
theorem resultWritesHaveNoEffect : Obligations.ResultWritesHaveNoEffect :=
  fun _ _ => ⟨rfl, rfl, rfl⟩

/-- Settles O23: slot by slot, the six reads respond with zero and the five writes give the state back. -/
theorem slotsWithoutStorageReadZero : Obligations.SlotsWithoutStorageReadZero := by
  intro s v
  simp only [List.forall_mem_cons]
  exact ⟨⟨rfl, rfl, rfl, rfl, rfl, rfl, nofun⟩, rfl, rfl, rfl, rfl, rfl, nofun⟩

/-- Settles O24: a read responds, or reads a result register; neither touches a field of ZC-CORE. -/
theorem readsChangeNoState : Obligations.ReadsChangeNoState := by
  intro i s hread
  obtain ⟨v, hexec | hexec⟩ := exec_read_cases s hread <;> rw [hexec]
  · exact ⟨v, s.draws, rfl⟩
  · obtain ⟨w, n, heq⟩ := respondResult_eq v s
    exact ⟨w, n, congrArg _ heq⟩

/-- Settles O26: while BUSY the request is the identity. -/
theorem busyRequestIsIgnored : Obligations.BusyRequestIsIgnored :=
  fun _ w hbusy => congrArg _ (requestCommand_of_busy hbusy w)

/-! ## How long results stay (R115) -/

/-- The results of the last completion are as before, and so is BUSY, so that an idle state still shows them. -/
def KeepsResultsAndBusy (s t : State) : Prop := KeepsResults s t ∧ t.status.busy = s.status.busy

/-- The results and BUSY are five words and flags; a change of any other field keeps them by definition. -/
theorem KeepsResultsAndBusy.refl (s : State) : KeepsResultsAndBusy s s := ⟨⟨rfl, rfl, rfl, rfl, rfl⟩, rfl⟩

theorem KeepsResultsAndBusy.respondResult (stored : Word) (s : State) : KeepsResultsAndBusy s (respondResult stored s) := by
  rw [respondResult_frame]
  exact .refl s

theorem KeepsResultsAndBusy.writeOperand {s written : State} (h : KeepsResultsAndBusy s written) :
    KeepsResultsAndBusy s (writeOperand written s) := by
  rcases writeOperand_cases written s with ⟨-, heq⟩ | ⟨-, heq⟩ <;> rw [heq]
  · exact .refl s
  · exact h

/-- Of the register transactions only a CMD write can change results or BUSY (R100, R128). -/
theorem exec_keepsResultsAndBusy {i : Instr} {s t : State} (htxn : isTransaction i = true) (hcmd : ∀ v, i ≠ .wrCmd v)
    (h : exec i s = .next t) : KeepsResultsAndBusy s t := by
  cases i
  case wrCmd v => exact absurd rfl (hcmd v)
  case crc32 | cmp | search | entropy => cases htxn
  case rdResult0 | rdResult1 | rdErrAddr => cases h; exact .respondResult _ s
  case wrAAddr | wrALen | wrBAddr | wrBLen => cases h; exact .writeOperand (.refl s)
  all_goals cases h; exact .refl s

/-- Settles O57: while idle, the turns of the core and of memory's reads are empty, and what is left is a write of memory, the release
of reset, or a transaction other than a CMD write. -/
theorem resultsStayUntilTheNextRequest : Obligations.ResultsStayUntilTheNextRequest := by
  intro s t hidle hstep hreset hcmd
  suffices h : KeepsResultsAndBusy s t from ⟨h.1, h.2.trans hidle⟩
  rcases step_cases hstep with ⟨-, hcore⟩ | ⟨ts, -, hcore⟩ | ⟨a, i, ts, hturns, -, hdecode, hexec⟩ | ⟨a, v, ts, -, rfl⟩ |
    ⟨a, ts, -, hbus⟩ | ⟨a, ts, -, rfl⟩ | ⟨asserted, ts, hturns, rfl⟩
  · cases (takeCore_of_idle hidle).symm.trans hcore
    exact .refl s
  · cases (takeCore_of_idle (s := { s with turns := ts }) hidle).symm.trans hcore
    exact .refl s
  · have hother : ∀ v, i ≠ .wrCmd v := fun v hi => hcmd a v (by rw [hturns]; rfl) (hi ▸ hdecode)
    exact exec_keepsResultsAndBusy (s := { s with turns := ts }) (decodeAccess_isTransaction hdecode) hother hexec
  · exact .refl s
  · cases (takeBusError_of_idle (s := { s with turns := ts }) hidle a).symm.trans hbus
    exact .refl s
  · rw [takeNoAnswer_of_idle (s := { s with turns := ts }) hidle]
    exact .refl s
  · cases asserted
    case false => exact .refl s
    case true => exact absurd (by rw [hturns]; rfl) hreset

end Sys2Proof.Machine
end

section
/-! CRC32: the checksum register as a scan of operand A by index (R142). -/

namespace Sys2Proof.Machine

open Sys2Proof.Safety

/-- The scan takes the bytes of a buffer from memory one index at a time, lowest first (R9, R142). -/
theorem crcRegister_buffer (s : State) (addr len : Word) :
    crcRegister (buffer s addr len) =
      (List.range len.toNat).foldl (fun crc i => crcStep crc (memRead s (addr.toNat + i))) crcInit :=
  List.foldl_map

/-- Settles O31: a run completes with its rule's results, and the rule's register is the scan by index. -/
theorem checksumIsTheTableDrivenCrc : Obligations.ChecksumIsTheTableDrivenCrc := by
  intro s hrun
  have hdone := finish_completedWith (crcCompletion s) s
  have hr0 : (crcCompletion s).r0 = ~~~ crcRegister (buffer s s.aAddr s.aLen) := rfl
  rw [hr0, crcRegister_buffer] at hdone
  exact ⟨_, exec_of_runs hrun, hdone⟩

end Sys2Proof.Machine
end

section
/-! CMP: the first difference of two buffers decides, and the two buffers swap (R151, R153). -/

namespace Sys2Proof.Machine

open Sys2Proof.Safety

/-- Buffers of one length are the same list exactly when they have the same byte at every index (R9). -/
theorem buffer_eq_iff {s : State} {a b len : Word} :
    buffer s a len = buffer s b len ↔ ∀ i < len.toNat, memRead s (a.toNat + i) = memRead s (b.toNat + i) := by
  simp only [buffer, List.map_inj_left, List.mem_range]

/-! ## The first difference -/

theorem firstDifference_eq_none {s : State} {a b len : Word} :
    firstDifference s a b len = none ↔ ∀ i < len.toNat, memRead s (a.toNat + i) = memRead s (b.toNat + i) := by
  simp [firstDifference]

theorem firstDifference_eq_some {s : State} {a b len : Word} {i : Nat} :
    firstDifference s a b len = some i ↔ i < len.toNat ∧
      (∀ j < i, memRead s (a.toNat + j) = memRead s (b.toNat + j)) ∧ memRead s (a.toNat + i) ≠ memRead s (b.toNat + i) := by
  simp only [firstDifference, List.find?_range_eq_some, List.mem_range, decide_eq_true_eq, Bool.not_eq_true',
    decide_eq_false_iff_not, not_not]
  tauto

/-- Which buffer is called a makes no difference to where the two differ. -/
theorem firstDifference_comm (s : State) (a b len : Word) : firstDifference s a b len = firstDifference s b a len :=
  List.find?_congr fun _ _ => decide_eq_decide.mpr ne_comm

/-! ## The result (R151) -/

theorem compareResult_eq_equal {s : State} {a b len : Word} :
    compareResult s a b len = resultEqual ↔ firstDifference s a b len = none := by
  unfold compareResult
  cases firstDifference s a b len with
  | none => simp
  | some i => dsimp only; split <;> simp [resultEqual, resultLess, resultGreater]

theorem compareResult_eq_less {s : State} {a b len : Word} :
    compareResult s a b len = resultLess ↔
      ∃ i, firstDifference s a b len = some i ∧ memRead s (a.toNat + i) < memRead s (b.toNat + i) := by
  unfold compareResult
  cases firstDifference s a b len with
  | none => simp [resultEqual, resultLess]
  | some i => simp [resultLess, resultGreater]

/-- At a first difference the bytes are unequal, so the result that is not less is greater. -/
theorem compareResult_eq_greater {s : State} {a b len : Word} :
    compareResult s a b len = resultGreater ↔
      ∃ i, firstDifference s a b len = some i ∧ memRead s (b.toNat + i) < memRead s (a.toNat + i) := by
  unfold compareResult
  cases hd : firstDifference s a b len with
  | none => simp [resultEqual, resultGreater]
  | some i =>
    obtain ⟨-, -, hne⟩ := firstDifference_eq_some.mp hd
    have hle : memRead s (b.toNat + i) ≤ memRead s (a.toNat + i) ↔ memRead s (b.toNat + i) < memRead s (a.toNat + i) :=
      ⟨fun h => BitVec.lt_of_le_ne h hne.symm, BitVec.le_of_lt⟩
    simp [resultLess, resultGreater, hle]

/-- A relation that only unequal bytes have holds at the first difference exactly when it holds after equal bytes (R151). -/
theorem exists_firstDifference_iff {s : State} {a b len : Word} {r : Byte → Byte → Prop} (hr : ∀ x, ¬ r x x) :
    (∃ i, firstDifference s a b len = some i ∧ r (memRead s (a.toNat + i)) (memRead s (b.toNat + i))) ↔
      ∃ i < len.toNat, (∀ j < i, memRead s (a.toNat + j) = memRead s (b.toNat + j)) ∧
        r (memRead s (a.toNat + i)) (memRead s (b.toNat + i)) := by
  constructor
  · rintro ⟨i, hi, hrel⟩
    obtain ⟨hlt, hbefore, -⟩ := firstDifference_eq_some.mp hi
    exact ⟨i, hlt, hbefore, hrel⟩
  · rintro ⟨i, hlt, hbefore, hrel⟩
    have hne : memRead s (a.toNat + i) ≠ memRead s (b.toNat + i) := fun heq => hr _ (heq ▸ hrel)
    exact ⟨i, firstDifference_eq_some.mpr ⟨hlt, hbefore, hne⟩, hrel⟩

/-- Settles O35: each of the three results is read off the first difference. -/
theorem compareFollowsTheFirstDifference : Obligations.CompareFollowsTheFirstDifference := by
  intro s hrun
  exact ⟨_, exec_of_runs hrun, finish_completedWith (cmpCompletion s) s,
    compareResult_eq_equal.trans firstDifference_eq_none,
    compareResult_eq_less.trans (exists_firstDifference_iff (r := fun x y => x < y) BitVec.lt_irrefl),
    compareResult_eq_greater.trans (exists_firstDifference_iff (r := fun x y => y < x) BitVec.lt_irrefl)⟩

/-! ## Swapping the buffers (R153) -/

theorem compareResult_swap_equal {s : State} {a b len : Word} :
    compareResult s a b len = resultEqual ↔ compareResult s b a len = resultEqual := by
  rw [compareResult_eq_equal, compareResult_eq_equal, firstDifference_comm]

theorem compareResult_swap_less {s : State} {a b len : Word} :
    compareResult s a b len = resultLess ↔ compareResult s b a len = resultGreater := by
  rw [compareResult_eq_less, compareResult_eq_greater, firstDifference_comm]

/-- Whether a command runs depends on which operands it uses, and not on their order (R107). -/
theorem runs_of_usedOperands_perm {c : Command} {s s' : State} (hops : (usedOperands c s).Perm (usedOperands c s'))
    (hplatform : s.platform = s'.platform) (hseq : s.seq = s'.seq) (h : runs c s = true) : runs c s' = true := by
  have hall : ∀ p, declaredAll c s' p = declaredAll c s p := fun p => (hops.all_eq).symm
  rw [runs_iff, rangeFailure_eq_none] at h ⊢
  obtain ⟨hrange, hrest⟩ := h
  refine ⟨fun o ho => hrange o (hops.mem_iff.mpr ho), ?_⟩
  rwa [hall, hall, ← hplatform, ← hseq]

/-- CMP's two operands have one length, so swapping the addresses swaps the operands (R155). -/
theorem runs_cmp_swap {s : State} (h : runs .cmp s = true) :
    runs .cmp { s with aAddr := s.bAddr, bAddr := s.aAddr } = true :=
  runs_of_usedOperands_perm (List.Perm.swap _ _ _) rfl rfl h

/-- Settles O36: equal buffers have no first difference, and swapping keeps the first difference and exchanges the two bytes there. -/
theorem compareIsReflexiveAndAntisymmetric : Obligations.CompareIsReflexiveAndAntisymmetric := by
  intro s hrun
  refine ⟨_, _, exec_of_runs hrun, exec_of_runs (runs_cmp_swap hrun), fun hbuf => ?_, compareResult_swap_less,
    compareResult_swap_less.symm, compareResult_swap_equal⟩
  exact compareResult_eq_equal.mpr (firstDifference_eq_none.mpr (buffer_eq_iff.mp hbuf))

end Sys2Proof.Machine
end

section
/-! SEARCH: the offset tried first that matches is the leftmost occurrence of the needle (R161 to R164). -/

namespace Sys2Proof.Machine

open Sys2Proof.Safety

/-! ## The needle's occurrences -/

/-- An empty needle and one longer than the haystack occur nowhere (R163, R164). -/
theorem not_needleAt_of_empty_or_oversized {s : State} (h : s.bLen.toNat = 0 ∨ s.aLen.toNat < s.bLen.toNat) (i : Nat) :
    ¬ NeedleAt s i := by
  rintro ⟨hnonempty, hinside, -⟩
  omega

/-- The occurrences of any other needle are the candidate offsets of the scan that match (R160, R162). -/
theorem needleAt_iff_candidate_matches {s : State} {i : Nat} (h : ¬ (s.bLen.toNat = 0 ∨ s.aLen.toNat < s.bLen.toNat)) :
    NeedleAt s i ↔ i < s.aLen.toNat - s.bLen.toNat + 1 ∧ matchesAt s i = true := by
  rw [NeedleAt, ← matchesAt_iff, ← and_assoc]
  exact and_congr_left' (by omega)

/-- A match at an offset is an offset of operand A, and so fits a word. -/
theorem toNat_ofNat_of_needleAt {s : State} {i : Nat} (h : NeedleAt s i) : (BitVec.ofNat 32 i).toNat = i := by
  obtain ⟨-, hinside, -⟩ := h
  have hlen := s.aLen.isLt
  rw [BitVec.toNat_ofNat, Nat.mod_eq_of_lt (by omega)]

/-! ## The offset the scan finds -/

/-- The scan finds nothing exactly when the needle occurs nowhere (R161, R163, R164). -/
theorem searchOffset_eq_none {s : State} : searchOffset s = none ↔ ∀ i, ¬ NeedleAt s i := by
  unfold searchOffset
  split
  case isTrue h => simp [not_needleAt_of_empty_or_oversized h]
  case isFalse h => simp [needleAt_iff_candidate_matches h]

/-- The scan finds the smallest offset at which the needle occurs, and no other (R162). -/
theorem searchOffset_eq_some {s : State} {i : Nat} :
    searchOffset s = some i ↔ NeedleAt s i ∧ ∀ j < i, ¬ NeedleAt s j := by
  unfold searchOffset
  split
  case isTrue h => simp [not_needleAt_of_empty_or_oversized h]
  case isFalse h =>
    simp only [needleAt_iff_candidate_matches h, List.find?_range_eq_some, List.mem_range, Bool.not_eq_true']
    constructor
    · rintro ⟨hmatch, hi, hbefore⟩
      exact ⟨⟨hi, hmatch⟩, fun j hj hmatchj => by simp [hbefore j hj] at hmatchj⟩
    · rintro ⟨⟨hi, hmatch⟩, hbefore⟩
      exact ⟨hmatch, hi, fun j hj => by simpa [hj.trans hi] using hbefore j hj⟩

/-! ## The completion (R161) -/

/-- A command that runs completes with no error and with the results of its rule (R112). -/
theorem completes_of_runs {c : Command} {s : State} (h : runs c s = true) :
    ∃ t, exec c.toInstr s = .next t ∧
      CompletedWith s t (completionOf c s).r0 (completionOf c s).r1 (completionOf c s).found :=
  ⟨_, exec_of_runs h, finish_completedWith _ s⟩

/-- A SEARCH that runs and finds an offset completes with it and FOUND = 1. -/
theorem exec_search_of_found {s : State} {i : Nat} (hrun : runs .search s = true) (h : searchOffset s = some i) :
    ∃ t, exec .search s = .next t ∧ CompletedWith s t (BitVec.ofNat 32 i) 0x00000000#32 true := by
  simpa only [Command.toInstr, completionOf, searchCompletion, h] using completes_of_runs hrun

/-- A SEARCH that runs and finds no offset completes with the sentinel and FOUND = 0. -/
theorem exec_search_of_not_found {s : State} (hrun : runs .search s = true) (h : searchOffset s = none) :
    ∃ t, exec .search s = .next t ∧ CompletedWith s t 0xFFFFFFFF#32 0x00000000#32 false := by
  simpa only [Command.toInstr, completionOf, searchCompletion, notFound, h] using completes_of_runs hrun

/-- Settles O38: the completion reports the offset the scan finds, which is the needle's first occurrence if it has one. -/
theorem searchFindsTheLeftmostMatch : Obligations.SearchFindsTheLeftmostMatch := by
  intro s hrun
  refine ⟨fun i hmatch hbefore => ?_, fun hnowhere => ?_, fun hshape => ?_⟩
  · obtain ⟨t, hexec, hdone⟩ := exec_search_of_found hrun (searchOffset_eq_some.mpr ⟨hmatch, hbefore⟩)
    exact ⟨t, hexec, hdone, hdone.result0 ▸ toNat_ofNat_of_needleAt hmatch⟩
  · exact exec_search_of_not_found hrun (searchOffset_eq_none.mpr hnowhere)
  · exact not_needleAt_of_empty_or_oversized (hshape.imp_left (congrArg BitVec.toNat))

end Sys2Proof.Machine
end

section
/-! A CMD write that ends at once with an error: ILLEGAL_OP and RANGE (R191, R192). -/

namespace Sys2Proof.Machine

open Sys2Proof.Safety

/-- The words that request no command are all but the four of R84. -/
theorem Command.ofWord_eq_none {w : Word} :
    Command.ofWord w = none ↔ w ∉ [0x00000001#32, 0x00000002#32, 0x00000003#32, 0x00000004#32] := by
  have hlegal : (∃ c : Command, w = 0#28 ++ c.op) ↔ w ∈ [0x00000001#32, 0x00000002#32, 0x00000003#32, 0x00000004#32] := by
    simp only [List.mem_cons, List.not_mem_nil, or_false]
    constructor
    · rintro ⟨c, rfl⟩
      cases c <;> decide
    · rintro (rfl | rfl | rfl | rfl)
      exacts [⟨.crc32, rfl⟩, ⟨.cmp, rfl⟩, ⟨.search, rfl⟩, ⟨.entropy, rfl⟩]
  simp only [← hlegal, ← Command.ofWord_eq_some, Option.eq_none_iff_forall_not_mem, Option.mem_def, not_exists]

/-- The range check names the first used operand that goes past 2^32: all before it fit (R106). -/
theorem rangeFailure_of_first_past {c : Command} {s : State} {before after : List Operand} {o : Operand}
    (hops : usedOperands c s = before ++ o :: after) (hbefore : ∀ p ∈ before, p.addr.toNat + p.len.toNat ≤ 2 ^ 32)
    (hpast : 2 ^ 32 < o.addr.toNat + o.len.toNat) : rangeFailure c s = some o.addr := by
  have hnone : before.find? (fun p => !p.fits) = none := by simpa [Operand.fits_iff] using hbefore
  have hfails : o.fits = false := by simpa [← Bool.not_eq_true, Operand.fits_iff] using hpast
  simp [rangeFailure, hops, hnone, hfails]

/-- Every command uses operand A and checks it first (R107). -/
theorem usedOperands_eq_cons (c : Command) (s : State) : ∃ rest, usedOperands c s = ⟨s.aAddr, s.aLen⟩ :: rest := by
  cases c <;> exact ⟨_, rfl⟩

/-- STATUS after ILLEGAL_OP (R191). -/
theorem Status.toWord_illegalOp : (Status.completedErr errIllegalOp).toWord = 0x00000104#32 := by decide

/-- STATUS after RANGE (R192). -/
theorem Status.toWord_range : (Status.completedErr errRange).toWord = 0x00000204#32 := by decide

/-- An accepted word that requests no command ends with ILLEGAL_OP (R105). -/
theorem requestCommand_of_illegal {w : Word} {s : State} (hidle : s.status.busy = false) (hword : Command.ofWord w = none) :
    requestCommand w s = completeErr errIllegalOp 0#32 s := by
  simp [requestCommand, hidle, hword]

/-- An accepted legal word whose range check fails ends with RANGE at the operand the check names (R106). -/
theorem requestCommand_of_rangeFailure {c : Command} {s : State} {a : Word} (hidle : s.status.busy = false)
    (hrange : rangeFailure c s = some a) : requestCommand (0#28 ++ c.op) s = completeErr errRange a s := by
  have hword : Command.ofWord (0#28 ++ c.op) = some c := Command.ofWord_eq_some.mpr rfl
  simp [requestCommand, hidle, hword, hrange]

/-- A CMD write whose range check fails reports RANGE and the address the check names (R192). -/
theorem exec_wrCmd_of_rangeFailure {c : Command} {s : State} {a : Word} (hidle : s.status.busy = false)
    (hrange : rangeFailure c s = some a) :
    ∃ t, exec (.wrCmd (0#28 ++ c.op)) s = .next t ∧ FailedWith s t 2#4 a ∧ t.status.toWord = 0x00000204#32 :=
  ⟨_, congrArg Host.Outcome.next (requestCommand_of_rangeFailure hidle hrange), completeErr_failedWith errRange a s,
    Status.toWord_range⟩

/-- Settles O27: a word outside the four requests no command, whatever the operands are. -/
theorem illegalWordReportsIllegalOp : Obligations.IllegalWordReportsIllegalOp :=
  fun s _ hidle hillegal =>
    ⟨_, congrArg Host.Outcome.next (requestCommand_of_illegal hidle (Command.ofWord_eq_none.mpr hillegal)),
      completeErr_failedWith errIllegalOp 0#32 s, Status.toWord_illegalOp⟩

/-- Settles O28: operand A is checked before any other, and operand B, where it is used, right after it. -/
theorem rangeErrorNamesTheFirstOperand : Obligations.RangeErrorNamesTheFirstOperand := by
  intro s c hidle
  refine ⟨fun hpastA => ?_, fun hfitsA hpastB => ?_⟩
  · obtain ⟨rest, hops⟩ := usedOperands_eq_cons c s
    exact exec_wrCmd_of_rangeFailure hidle (rangeFailure_of_first_past (before := []) hops nofun hpastA)
  · have hbefore : ∀ p ∈ [Operand.mk s.aAddr s.aLen], p.addr.toNat + p.len.toNat ≤ 2 ^ 32 :=
      List.forall_mem_singleton.mpr hfitsA
    obtain ⟨rfl, hpast⟩ | ⟨rfl, hpast⟩ := hpastB
    · exact exec_wrCmd_of_rangeFailure hidle (rangeFailure_of_first_past (o := ⟨s.bAddr, s.aLen⟩) rfl hbefore hpast)
    · exact exec_wrCmd_of_rangeFailure hidle (rangeFailure_of_first_past (o := ⟨s.bAddr, s.bLen⟩) rfl hbefore hpast)

end Sys2Proof.Machine
end

section
/-! ENTROPY_FN: properties E2 to E6 of R174, for every value of the free constants (log 7). -/

namespace Sys2Proof.Machine

open Sys2Proof.Safety

/-! ## Clamping -/

theorem le_clampBits {lo hi : Binary64} (h : lo ≤ hi) (x : Binary64) : lo ≤ clampBits lo hi x := by
  unfold clampBits
  split
  · exact BitVec.le_refl lo
  · split
    · exact h
    · exact BitVec.not_lt.mp ‹_›

theorem clampBits_le {lo hi : Binary64} (h : lo ≤ hi) (x : Binary64) : clampBits lo hi x ≤ hi := by
  unfold clampBits
  split
  · exact h
  · split
    · exact BitVec.le_refl hi
    · exact BitVec.not_lt.mp ‹_›

/-! ## The table of exact results (E5) -/

/-- In a table whose results rise to `top`, a lookup that starts at a larger key gives no smaller result. -/
theorem lookupAbove_mono {rows : List (Nat × Binary64)} {top : Binary64} (hrise : rows.Pairwise (fun r r' => r.2 ≤ r'.2))
    (htop : ∀ r ∈ rows, r.2 ≤ top) {j k : Nat} (hjk : j ≤ k) :
    ((rows.find? (fun row => decide (j ≤ row.1))).map Prod.snd).getD top ≤
      ((rows.find? (fun row => decide (k ≤ row.1))).map Prod.snd).getD top := by
  induction rows with
  | nil => exact BitVec.le_refl top
  | cons r rows ih =>
    obtain ⟨hr, hrise⟩ := List.pairwise_cons.mp hrise
    obtain ⟨hrtop, htop⟩ := List.forall_mem_cons.mp htop
    by_cases hk : k ≤ r.1
    · simp [hk, hjk.trans hk]
    · by_cases hj : j ≤ r.1
      · simp only [List.find?_cons, hj, hk, decide_true, decide_false, Option.map_some, Option.getD_some]
        cases hfind : rows.find? (fun row => decide (k ≤ row.1)) with
        | none => exact hrtop
        | some r' => exact hr r' (List.mem_of_find?_eq_some hfind)
      · simpa [hj, hk] using ih hrise htop

theorem entropyAbove_mono {j k : Nat} (h : j ≤ k) : entropyAbove j ≤ entropyAbove k :=
  lookupAbove_mono (by decide) (by decide) h

/-- No exact result is above 8.0 (E3). -/
theorem entropyAbove_le_eight (k : Nat) : entropyAbove k ≤ binary64Eight := by
  have hrows : ∀ row ∈ dyadicEntropy, row.2 ≤ binary64Eight := by decide
  unfold entropyAbove
  cases hfind : dyadicEntropy.find? (fun row => decide (k ≤ row.1)) with
  | none => exact BitVec.le_refl _
  | some row => exact hrows row (List.mem_of_find?_eq_some hfind)

/-- For a power of two the next power of two at or above is itself. -/
theorem entropyAbove_of_exact {k : Nat} {e : Binary64} (h : exactEntropy k = some e) : entropyAbove k = e := by
  have hrows : ∀ row ∈ dyadicEntropy, entropyAbove row.1 = row.2 := by decide
  obtain ⟨row, hfind, rfl⟩ := Option.map_eq_some_iff.mp h
  have hkey : row.1 = k := by simpa using List.find?_some hfind
  exact hkey ▸ hrows row (List.mem_of_find?_eq_some hfind)

/-! ## The largest result for k equally frequent values -/

theorem entropyCeilingOf_succ (k : Nat) : entropyCeilingOf (k + 1) =
    (exactEntropy (k + 1)).getD (clampBits (entropyCeilingOf k) (entropyAbove (k + 1)) (Config.entropyCeiling (k + 1))) := rfl

/-- The result for k + 1 values, exact or clamped, lies between those for k and for the next power of two. -/
theorem entropyCeilingOf_succ_bounds {k : Nat} (h : entropyCeilingOf k ≤ entropyAbove (k + 1)) :
    entropyCeilingOf k ≤ entropyCeilingOf (k + 1) ∧ entropyCeilingOf (k + 1) ≤ entropyAbove (k + 1) := by
  rw [entropyCeilingOf_succ]
  cases hexact : exactEntropy (k + 1) with
  | none => exact ⟨le_clampBits h _, clampBits_le h _⟩
  | some e =>
    rw [← entropyAbove_of_exact hexact]
    exact ⟨h, BitVec.le_refl _⟩

theorem entropyCeilingOf_le_above (k : Nat) : entropyCeilingOf k ≤ entropyAbove k := by
  induction k with
  | zero => decide
  | succ k ih => exact (entropyCeilingOf_succ_bounds (BitVec.le_trans ih (entropyAbove_mono k.le_succ))).2

theorem entropyCeilingOf_le_succ (k : Nat) : entropyCeilingOf k ≤ entropyCeilingOf (k + 1) :=
  (entropyCeilingOf_succ_bounds (BitVec.le_trans (entropyCeilingOf_le_above k) (entropyAbove_mono k.le_succ))).1

theorem entropyCeilingOf_mono {j k : Nat} (h : j ≤ k) : entropyCeilingOf j ≤ entropyCeilingOf k := by
  induction h with
  | refl => exact BitVec.le_refl _
  | step _ ih => exact BitVec.le_trans ih (entropyCeilingOf_le_succ _)

/-- An exact result is the largest one for its number of values. -/
theorem entropyCeilingOf_of_exact {k : Nat} {e : Binary64} (h : exactEntropy k = some e) : entropyCeilingOf k = e := by
  cases k with
  | zero => cases h
  | succ k => simp [entropyCeilingOf_succ, h]

/-! ## ENTROPY_FN -/

theorem equalEntropy_of_exact {k : Nat} {e : Binary64} (h : exactEntropy k = some e) (free : Binary64) :
    equalEntropy k free = e := by
  simp [equalEntropy, h]

/-- The result for k equally frequent values lies between the largest for k - 1 and the largest for k (E6). -/
theorem equalEntropy_bounds (k : Nat) (free : Binary64) :
    entropyCeilingOf (k - 1) ≤ equalEntropy k free ∧ equalEntropy k free ≤ entropyCeilingOf k := by
  have hle := entropyCeilingOf_mono (Nat.sub_le k 1)
  cases hexact : exactEntropy k with
  | none =>
    simp only [equalEntropy, hexact, Option.getD_none]
    exact ⟨le_clampBits hle free, clampBits_le hle free⟩
  | some e =>
    rw [equalEntropy_of_exact hexact, ← entropyCeilingOf_of_exact hexact]
    exact ⟨hle, BitVec.le_refl _⟩

theorem entropyFn_le_eight (h : Histogram) (n : Word) : entropyFn h n ≤ binary64Eight := by
  unfold entropyFn
  split
  · exact BitVec.le_trans (equalEntropy_bounds _ _).2 (BitVec.le_trans (entropyCeilingOf_le_above _) (entropyAbove_le_eight _))
  · exact clampBits_le (by decide) _

/-- Counters that are each zero or one common count leave the values that occur equally frequent. -/
theorem equallyFrequent_of_common_count {h : Histogram} {c : Word} (hc : ∀ x ∈ h.toList, x = 0#32 ∨ x = c) :
    equallyFrequent h = true := by
  have hall : ∀ x ∈ occurring h, x = c := by
    intro x hx
    obtain ⟨hmem, hne⟩ := List.mem_filter.mp hx
    exact (hc x hmem).resolve_left (of_decide_eq_true hne)
  unfold equallyFrequent
  cases hocc : occurring h with
  | nil => rfl
  | cons d rest =>
    rw [hocc] at hall
    have hd : d = c := hall d List.mem_cons_self
    exact List.all_eq_true.mpr fun x hx => decide_eq_true (congrArg some ((hall x hx).trans hd.symm))

theorem entropyFn_of_common_count {h : Histogram} {c : Word} (hc : ∀ x ∈ h.toList, x = 0#32 ∨ x = c) (n : Word) :
    entropyFn h n = equalEntropy (occurring h).length (Config.entropyBits h n) :=
  if_pos (equallyFrequent_of_common_count hc)

/-- Settles O44: the nine results are the table's own, which `equalEntropy` takes whatever the free value. -/
theorem equalFrequenciesGiveTheExactEntropy : Obligations.EqualFrequenciesGiveTheExactEntropy := by
  intro h n c j e hj hlen hc
  have htable : ∀ i < 9, [0x0000000000000000#64, 0x3FF0000000000000#64, 0x4000000000000000#64, 0x4008000000000000#64,
      0x4010000000000000#64, 0x4014000000000000#64, 0x4018000000000000#64, 0x401C000000000000#64,
      0x4020000000000000#64][i]? = exactEntropy (2 ^ i) := by decide
  obtain ⟨hlt, -⟩ := List.getElem?_eq_some_iff.mp hj
  rw [entropyFn_of_common_count hc, hlen]
  exact equalEntropy_of_exact ((htable j hlt).symm.trans hj) _

/-- Settles O46: the result for fewer values is at most their largest, and the largest results rise. -/
theorem entropyGrowsWithEquallyFrequentValues : Obligations.EntropyGrowsWithEquallyFrequentValues := by
  intro h h' n n' c c' hc hc' hlt
  rw [entropyFn_of_common_count hc, entropyFn_of_common_count hc']
  exact BitVec.le_trans (equalEntropy_bounds _ _).2
    (BitVec.le_trans (entropyCeilingOf_mono (Nat.le_sub_one_of_lt hlt)) (equalEntropy_bounds _ _).1)

/-! ## The real value of the bits (E3) -/

/-- The bits of a number from +0.0 to 8.0 have an exponent of at most 1026, and at 1026 no fraction. -/
theorem fields_of_le_eight {x : Binary64} (h : x ≤ binary64Eight) :
    (x.extractLsb' 52 11).toNat ≤ 1025 ∨ (x.extractLsb' 52 11).toNat = 1026 ∧ (x.extractLsb' 0 52).toNat = 0 := by
  have hx : x.toNat ≤ 0x4020000000000000 := h
  simp only [BitVec.extractLsb'_toNat, Nat.shiftRight_eq_div_pow]
  omega

theorem getLsbD_63_of_le_eight {x : Binary64} (h : x ≤ binary64Eight) : x.getLsbD 63 = false := by
  have hx : x.toNat < 2 ^ 63 := Nat.lt_of_le_of_lt (show x.toNat ≤ 0x4020000000000000 from h) (by decide)
  exact Nat.testBit_lt_two_pow hx

/-- The magnitude's numerator, for an exponent and a fraction of a number up to 8.0. -/
theorem scaled_significand_le {exponent fraction : Nat} (hf : fraction < 2 ^ 52)
    (h : exponent ≤ 1025 ∨ exponent = 1026 ∧ fraction = 0) :
    ((2 : ℝ) ^ 52 + fraction) * 2 ^ exponent ≤ 8 * 2 ^ 1075 := by
  rcases h with h | ⟨rfl, rfl⟩
  · have hsig : (2 : ℝ) ^ 52 + fraction ≤ 2 ^ 53 := by
      have : (fraction : ℝ) ≤ 2 ^ 52 := by exact_mod_cast hf.le
      linarith
    calc ((2 : ℝ) ^ 52 + fraction) * 2 ^ exponent ≤ 2 ^ 53 * 2 ^ 1025 :=
          mul_le_mul hsig (pow_le_pow_right₀ (by norm_num) h) (by positivity) (by positivity)
      _ = 2 ^ 3 * 2 ^ 1075 := by rw [← pow_add, ← pow_add]
      _ = 8 * 2 ^ 1075 := by rw [show (2 : ℝ) ^ 3 = 8 by norm_num]
  · refine le_of_eq ?_
    rw [Nat.cast_zero, add_zero, ← pow_add, show (8 : ℝ) = 2 ^ 3 by norm_num, ← pow_add]

theorem binary64Value_mem_Icc {x : Binary64} (h : x ≤ binary64Eight) : 0 ≤ binary64Value x ∧ binary64Value x ≤ 8 := by
  have hfraction := (x.extractLsb' 0 52).isLt
  simp only [binary64Value, getLsbD_63_of_le_eight h, Bool.false_eq_true, if_false]
  split
  · refine ⟨by positivity, (div_le_iff₀ (by positivity)).mpr ?_⟩
    have : ((x.extractLsb' 0 52).toNat : ℝ) ≤ 2 ^ 52 := by exact_mod_cast hfraction.le
    calc ((x.extractLsb' 0 52).toNat : ℝ) ≤ 2 ^ 52 := this
      _ ≤ 2 ^ 1074 := pow_le_pow_right₀ (by norm_num) (by norm_num)
      _ ≤ 8 * 2 ^ 1074 := le_mul_of_one_le_left (by positivity) (by norm_num)
  · refine ⟨by positivity, (div_le_iff₀ (by positivity)).mpr ?_⟩
    exact scaled_significand_le hfraction (fields_of_le_eight h)

/-- Settles O45: every result is at most the bits of 8.0, which bounds its sign, its bits and its value. -/
theorem entropyStaysInRange : Obligations.EntropyStaysInRange := by
  intro h n
  have hle := entropyFn_le_eight h n
  exact ⟨getLsbD_63_of_le_eight hle, hle, binary64Value_mem_Icc hle⟩

end Sys2Proof.Machine
end

section
/-! What a register transaction does to the state (40_command.md, section 3): each effect named once, and the frame. -/

namespace Sys2Proof.Machine

open Sys2Proof.Safety

/-- What a register transaction can make of a state: a write that takes effect, or nothing beyond what the host is answered. -/
inductive TransactionEffect (s : State) : Instr → State → Prop where
  /-- A read, or a write without effect: only the response and the count of draws may change (R128, R129, R131). -/
  | answer (i : Instr) (r : Option Word) (n : Nat) : TransactionEffect s i { s with response := r, draws := n }
  /-- R121. -/
  | control (v : Word) : TransactionEffect s (.wrCtrl v) { s with irqEn := v.getLsbD 0 }
  /-- R123. -/
  | status (v : Word) : TransactionEffect s (.wrStatus v) { s with status := s.status.writeOneToClear v }
  /-- R100. -/
  | request (w : Word) : TransactionEffect s (.wrCmd w) (requestCommand w s)
  /-- R126. -/
  | aAddr (v : Word) (hidle : s.status.busy = false) : TransactionEffect s (.wrAAddr v) { s with aAddr := v }
  /-- R126. -/
  | aLen (v : Word) (hidle : s.status.busy = false) : TransactionEffect s (.wrALen v) { s with aLen := v }
  /-- R126. -/
  | bAddr (v : Word) (hidle : s.status.busy = false) : TransactionEffect s (.wrBAddr v) { s with bAddr := v }
  /-- R126. -/
  | bLen (v : Word) (hidle : s.status.busy = false) : TransactionEffect s (.wrBLen v) { s with bLen := v }

theorem TransactionEffect.unchanged (s : State) (i : Instr) : TransactionEffect s i s :=
  .answer i s.response s.draws

theorem TransactionEffect.respondResult (s : State) (i : Instr) (stored : Word) :
    TransactionEffect s i (respondResult stored s) := by
  rw [respondResult_frame]
  exact .answer i _ _

theorem TransactionEffect.writeOperand {s written : State} {i : Instr}
    (h : s.status.busy = false → TransactionEffect s i written) : TransactionEffect s i (writeOperand written s) := by
  rcases writeOperand_cases written s with ⟨-, heq⟩ | ⟨hidle, heq⟩ <;> rw [heq]
  · exact .unchanged s i
  · exact h hidle

/-- Every register transaction has one of the effects. -/
theorem exec_transactionEffect {i : Instr} {s t : State} (htxn : isTransaction i = true) (h : exec i s = .next t) :
    TransactionEffect s i t := by
  cases i
  case crc32 | cmp | search | entropy => cases htxn
  case wrCtrl v => cases h; exact .control v
  case wrStatus v => cases h; exact .status v
  case wrCmd w => cases h; exact .request w
  case wrAAddr v => cases h; exact .writeOperand (.aAddr v)
  case wrALen v => cases h; exact .writeOperand (.aLen v)
  case wrBAddr v => cases h; exact .writeOperand (.bAddr v)
  case wrBLen v => cases h; exact .writeOperand (.bLen v)
  case rdResult0 | rdResult1 | rdErrAddr => cases h; exact .respondResult s _ _
  case wrId | wrResult0 | wrResult1 | wrErrAddr | wrRsvd2C | wrRsvd30 | wrRsvd34 | wrRsvd38 | wrRsvd3C =>
    cases h; exact .unchanged s _
  all_goals cases h; exact .answer _ _ _

/-- A request changes STATUS, the results, ERR_ADDR, and of the sequencer the opcode and the records alone (R112, R113, R108). -/
theorem requestCommand_frame (w : Word) (s : State) :
    KeepsInputs s (requestCommand w s) ∧ (requestCommand w s).seq.hist = s.seq.hist ∧
      (requestCommand w s).seq.crc = s.seq.crc ∧ (requestCommand w s).seq.idx = s.seq.idx ∧
      (requestCommand w s).seq.cand = s.seq.cand := by
  rcases requestCommand_cases w s with ⟨-, heq⟩ | ⟨-, -, heq⟩ | ⟨c, a, -, -, -, heq⟩ | ⟨c, -, -, -, heq⟩ <;> rw [heq] <;>
    exact ⟨by constructor <;> rfl, rfl, rfl, rfl, rfl⟩

/-- Settles O25: each effect changes the one register its transaction names, and a request only what `requestCommand_frame` allows. -/
theorem transactionFrame : Obligations.TransactionFrame := by
  intro i s t htxn hexec
  obtain ⟨hmem, hplatform, hreset, hturns, -⟩ := exec_frame hexec
  refine ⟨hmem, hplatform, hreset, hturns, ?_⟩
  cases exec_transactionEffect htxn hexec with
  | request w =>
    obtain ⟨hinputs, hhist, hcrc, hidx, hcand⟩ := requestCommand_frame w s
    exact ⟨hhist, hcrc, hidx, hcand, fun _ => hinputs.irqEn, fun _ => hinputs.aAddr, fun _ => hinputs.aLen,
      fun _ => hinputs.bAddr, fun _ => hinputs.bLen, fun h => absurd rfl (h w), fun h => absurd rfl (h w)⟩
  | _ => simp [KeepsResults]

/-! ## STATUS and CMD writes -/

/-- What a write to STATUS leaves of the two flags it can clear (R123). -/
theorem Status.writeOneToClear_eq (v : Word) (t : Status) :
    t.writeOneToClear v =
      { t with done := if v.getLsbD 1 then false else t.done, err := if v.getLsbD 2 then false else t.err } := by
  have hmask : ∀ flag bit : Bool, (flag && !bit) = if bit then false else flag := by decide
  simp only [Status.writeOneToClear, hmask]

/-- While a command runs in a state of a run, no other flag is set (R30). -/
theorem status_of_running {s : State} (hinv : RunInv s) (hbusy : s.status.busy = true) :
    s.status = { busy := true, done := false, err := false, found := false, errcode := 0#4 } := by
  rcases (Status.legal_iff s.status).mp hinv.status with ⟨hb, hd, he, hf, hc⟩ | ⟨hidle, -⟩ | ⟨hidle, -⟩
  · change Status.mk s.status.busy s.status.done s.status.err s.status.found s.status.errcode = _
    rw [hb, hd, he, hf, hc]
  · simp [hidle] at hbusy
  · simp [hidle] at hbusy

/-- While a command runs in a state of a run, there is no flag for a write to clear. -/
theorem writeOneToClear_of_running {s : State} (hinv : RunInv s) (hbusy : s.status.busy = true) (v : Word) :
    s.status.writeOneToClear v = s.status := by
  rw [status_of_running hinv hbusy]
  rfl

/-- Settles O18: the two flags are masked bit by bit, and neither is set while a command runs. -/
theorem statusWriteClearsWhereOneIsWritten : Obligations.StatusWriteClearsWhereOneIsWritten := by
  intro s v
  refine ⟨?_, fun hinv hbusy => ?_⟩
  · rw [← Status.writeOneToClear_eq]
    rfl
  · have hsame : exec (.wrStatus v) s = .next { s with status := s.status.writeOneToClear v } := rfl
    rw [hsame, writeOneToClear_of_running hinv hbusy]

/-- An accepted legal word whose operands fit starts its command (R108). -/
theorem requestCommand_of_fits {c : Command} {s : State} (hidle : s.status.busy = false) (hrange : rangeFailure c s = none) :
    requestCommand (0#28 ++ c.op) s = startCommand c s := by
  have hword : Command.ofWord (0#28 ++ c.op) = some c := Command.ofWord_eq_some.mpr rfl
  simp [requestCommand, hidle, hword, hrange]

/-- Settles O29: the operands that the premises bound are the ones the command uses, so the request starts it. -/
theorem acceptedCommandStarts : Obligations.AcceptedCommandStarts := by
  intro s c hidle hfitsA hfitsCmp hfitsSearch
  have hrange : rangeFailure c s = none := by
    rw [rangeFailure_eq_none]
    cases c
    case crc32 | entropy => simpa [usedOperands] using hfitsA
    case cmp => simpa [usedOperands] using And.intro hfitsA (hfitsCmp rfl)
    case search => simpa [usedOperands] using And.intro hfitsA (hfitsSearch rfl)
  have hstart : startCommand c s = { s with
      status := { busy := true, done := false, err := false, found := false, errcode := 0#4 }
      seq := { s.seq with op := c.op, reads := .answered, raced := false } } := rfl
  exact congrArg _ ((requestCommand_of_fits hidle hrange).trans hstart)

/-- Settles O21: a result register answers with its field while idle and with the next draw while BUSY. -/
theorem resultReadsAreDrawnWhileBusy : Obligations.ResultReadsAreDrawnWhileBusy := by
  intro s
  refine ⟨fun hidle => ?_, fun hbusy => ?_⟩
  · have hstored : ∀ v, respondResult v s = respond v s := fun v => by simp [respondResult, hidle]
    exact ⟨congrArg _ (hstored _), congrArg _ (hstored _), congrArg _ (hstored _)⟩
  · have hdrawn : ∀ v, respondResult v s =
        { s with response := some (Config.unspecifiedWord s.draws), draws := s.draws + 1 } := fun v => by
      simp [respondResult, respond, hbusy]
    simp only [List.forall_mem_cons]
    exact ⟨congrArg _ (hdrawn _), congrArg _ (hdrawn _), congrArg _ (hdrawn _), nofun⟩

end Sys2Proof.Machine
end

section
/-! The invariant of a run (R30, R36 to R38, R48, R168, R221): it holds after reset, and every step keeps it. -/

namespace Sys2Proof.Machine

open Sys2Proof.Safety

/-- Settles O13: memory is empty, STATUS and the registers are zero, and nothing runs. -/
theorem resetMeetsTheInvariant : Obligations.ResetMeetsTheInvariant where
  memory := reset_memory_wf
  status := by decide
  running := nofun
  idle := fun _ => ⟨rfl, rfl⟩
  held := by decide
  errAddr := fun _ _ _ => rfl
  errResults := fun _ _ => ⟨rfl, rfl⟩
  sentinel := by decide
  entropyHigh := by decide

/-! ## The results of the four rules -/

/-- An offset that SEARCH finds is below A_LEN, and so is not the sentinel (R168). -/
theorem ofNat_searchOffset_ne_notFound {s : State} {i : Nat} (h : searchOffset s = some i) : BitVec.ofNat 32 i ≠ notFound := by
  obtain ⟨hmatch, -⟩ := searchOffset_eq_some.mp h
  obtain ⟨hnonempty, hinside, -⟩ := id hmatch
  have hlen := s.aLen.isLt
  intro heq
  have hi := toNat_ofNat_of_needleAt hmatch
  rw [heq] at hi
  simp [notFound] at hi
  omega

/-- Both the empty buffer's entropy and ENTROPY_FN are at most 8.0 (R182, R174 E3). -/
theorem entropyOf_le_eight (h : Histogram) (n : Word) : entropyOf h n ≤ binary64Eight := by
  unfold entropyOf
  split
  · decide
  · exact entropyFn_le_eight h n

/-- The high word of a result up to 8.0 is at most that of 8.0. -/
theorem high_word_le_of_le_eight {e : Binary64} (h : e ≤ binary64Eight) : e.extractLsb' 32 32 ≤ 0x40200000#32 := by
  have he : e.toNat ≤ 0x4020000000000000 := h
  rw [BitVec.le_def, BitVec.extractLsb'_toNat, Nat.shiftRight_eq_div_pow]
  simp only [BitVec.toNat_ofNat]
  omega

/-- A rule that reports FOUND does not report the sentinel (R168). -/
theorem completionOf_found {c : Command} {s : State} (h : (completionOf c s).found = true) :
    (completionOf c s).r0 ≠ notFound := by
  cases c
  case search =>
    simp only [completionOf, searchCompletion] at h ⊢
    cases hoffset : searchOffset s with
    | none => simp [hoffset] at h
    | some i => exact ofNat_searchOffset_ne_notFound hoffset
  all_goals cases h

/-- RESULT1 is 0, or the high word of an entropy (R37). -/
theorem completionOf_r1_le (c : Command) (s : State) : (completionOf c s).r1 ≤ 0x40200000#32 := by
  cases c
  case crc32 | cmp => exact Nat.zero_le _
  case search =>
    simp only [completionOf, searchCompletion]
    cases searchOffset s <;> exact Nat.zero_le _
  case entropy => exact high_word_le_of_le_eight (entropyOf_le_eight _ _)

end Sys2Proof.Machine

namespace Sys2Proof.Safety

open Sys2Proof.Machine

/-! ## How each kind of update keeps the invariant -/

/-- A state that keeps results and BUSY meets the invariant again when memory, STATUS, the running command's inputs, the idle
sequencer and the reset input still do. -/
theorem RunInv.of_keepsResultsAndBusy {s t : State} (hinv : RunInv s) (hkeep : KeepsResultsAndBusy s t) (hmem : t.mem.wf = true)
    (hstatus : t.status.toWord ∈ statusValues)
    (hrunning : s.status.busy = true → t.seq.op = s.seq.op ∧ ∀ c, rangeFailure c t = rangeFailure c s)
    (hidle : s.status.busy = false → t.seq.reads = s.seq.reads ∧ t.seq.raced = s.seq.raced)
    (hreset : t.inReset = true → s.inReset = true) : RunInv t := by
  obtain ⟨⟨hr0, hr1, haddr, hfound, hcode⟩, hbusy⟩ := hkeep
  exact {
    memory := hmem
    status := hstatus
    running := fun h => by
      obtain ⟨hop, hrange⟩ := hrunning (hbusy ▸ h)
      simpa only [hop, hrange] using hinv.running (hbusy ▸ h)
    idle := fun h => by
      obtain ⟨hreads, hraced⟩ := hidle (hbusy ▸ h)
      simpa only [hreads, hraced] using hinv.idle (hbusy ▸ h)
    held := fun h => hbusy ▸ hinv.held (hreset h)
    errAddr := by simpa only [hbusy, hcode, haddr] using hinv.errAddr
    errResults := by simpa only [hbusy, hcode, hr0, hr1] using hinv.errResults
    sentinel := by simpa only [hbusy, hfound, hr0] using hinv.sentinel
    entropyHigh := hr1 ▸ hinv.entropyHigh }

/-- The pending turns are no part of the invariant. -/
theorem RunInv.withTurns {s : State} (hinv : RunInv s) (ts : List Turn) : RunInv { s with turns := ts } :=
  hinv.of_keepsResultsAndBusy (.refl s) hinv.memory hinv.status (fun _ => ⟨rfl, fun _ => rfl⟩) (fun _ => ⟨rfl, rfl⟩) id

/-- An error completion is idle, with zero results, and has an address only for RANGE and BUS (R113, R190). -/
theorem RunInv.completeErr {s : State} (hinv : RunInv s) {code : BitVec 4} {addr : Word}
    (h : code = errIllegalOp ∧ addr = 0#32 ∨ code = errRange ∨ code = errBus) : RunInv (completeErr code addr s) where
  memory := hinv.memory
  status := (Status.legal_iff _).mpr (.inr (.inr ⟨rfl, rfl, rfl, h.imp_left And.left⟩))
  running := by simp
  idle := fun _ => ⟨rfl, rfl⟩
  held := fun _ => rfl
  errAddr := fun _ hrange hbus => by
    rcases h with ⟨-, rfl⟩ | h | h
    · rfl
    · exact absurd h hrange
    · exact absurd h hbus
  errResults := fun _ _ => ⟨rfl, rfl⟩
  sentinel := by simp
  entropyHigh := Nat.zero_le _

/-- A fault on record is no part of the invariant. -/
theorem RunInv.withRecordedFault {s : State} (hinv : RunInv s) (f : Option Fault) : RunInv { s with recordedFault := f } :=
  hinv.of_keepsResultsAndBusy (.refl s) hinv.memory hinv.status (fun _ => ⟨rfl, fun _ => rfl⟩) (fun _ => ⟨rfl, rfl⟩) id

/-- A completion with a rule's results is idle and has no address (R112). -/
theorem RunInv.finish {s : State} (hinv : RunInv s) (c : Command) : RunInv (finish (completionOf c s) s) where
  memory := hinv.memory
  status := (Status.legal_iff _).mpr (.inr (.inl ⟨rfl, rfl, rfl⟩))
  running := by simp
  idle := fun _ => ⟨rfl, rfl⟩
  held := fun _ => rfl
  errAddr := fun _ _ _ => rfl
  errResults := fun _ h => absurd rfl h
  sentinel := fun _ => completionOf_found
  entropyHigh := completionOf_r1_le c s

/-- The start of a command that passed its range check, reset not asserted (R108). -/
theorem RunInv.startCommand {s : State} (hinv : RunInv s) {c : Command} (hreset : s.inReset = false)
    (hrange : rangeFailure c s = none) : RunInv (startCommand c s) where
  memory := hinv.memory
  status := (Status.legal_iff _).mpr (.inl ⟨rfl, rfl, rfl, rfl, rfl⟩)
  running := fun _ => ⟨c, rfl, hrange⟩
  idle := by simp
  held := by simp [hreset]
  errAddr := by simp
  errResults := by simp
  sentinel := by simp
  entropyHigh := hinv.entropyHigh

/-! ## Transactions, commands and turns -/

/-- Clearing DONE or ERR leads from one value of STATUS to another (R30, R123). -/
theorem legal_writeOneToClear {t : Status} (h : t.toWord ∈ statusValues) (v : Word) :
    (t.writeOneToClear v).toWord ∈ statusValues := by
  rw [Status.legal_iff] at h ⊢
  rcases h with ⟨hb, hd, he, hf, hc⟩ | ⟨hb, he, hc⟩ | ⟨hb, hd, hf, hc⟩
  · exact .inl ⟨hb, by simp [hd], by simp [he], hf, hc⟩
  · exact .inr (.inl ⟨hb, by simp [he], hc⟩)
  · exact .inr (.inr ⟨hb, by simp [hd], hf, hc⟩)

/-- Transactions keep the invariant: an operand register is written only while no range check rests on it (R126). -/
theorem RunInv.transaction {s t : State} {i : Instr} (hinv : RunInv s) (hreset : s.inReset = false)
    (heffect : TransactionEffect s i t) : RunInv t := by
  cases heffect with
  | answer | control =>
    exact hinv.of_keepsResultsAndBusy (.refl s) hinv.memory hinv.status (fun _ => ⟨rfl, fun _ => rfl⟩) (fun _ => ⟨rfl, rfl⟩) id
  | status v =>
    exact hinv.of_keepsResultsAndBusy (.refl s) hinv.memory (legal_writeOneToClear hinv.status v)
      (fun _ => ⟨rfl, fun _ => rfl⟩) (fun _ => ⟨rfl, rfl⟩) id
  | request w =>
    rcases requestCommand_cases w s with ⟨-, heq⟩ | ⟨-, -, heq⟩ | ⟨c, a, -, -, -, heq⟩ | ⟨c, -, -, hrange, heq⟩ <;> rw [heq]
    · exact hinv
    · exact hinv.completeErr (.inl ⟨rfl, rfl⟩)
    · exact hinv.completeErr (.inr (.inl rfl))
    · exact hinv.startCommand hreset hrange
  | aAddr v hidle | aLen v hidle | bAddr v hidle | bLen v hidle =>
    exact hinv.of_keepsResultsAndBusy (.refl s) hinv.memory hinv.status (fun hbusy => by simp [hidle] at hbusy)
      (fun _ => ⟨rfl, rfl⟩) id

/-- A command's run keeps the invariant, whether it completes, ends with RANGE or waits (R112, R113, R232). -/
theorem RunInv.command {s t : State} {c : Command} (hinv : RunInv s) (h : exec c.toInstr s = .next t) : RunInv t := by
  rw [exec_toInstr] at h
  rcases runCommand_next h with ⟨a, -, rfl⟩ | ⟨-, -, rfl⟩ | ⟨-, -, rfl⟩
  · exact hinv.completeErr (.inr (.inl rfl))
  · exact hinv
  · exact hinv.finish c

theorem RunInv.takeCore {s t : State} (hinv : RunInv s) (h : takeCore s = .next t) : RunInv t := by
  rcases takeCore_cases h with ⟨c, -, -, hexec⟩ | ⟨-, -, rfl⟩ | ⟨-, rfl⟩
  · exact hinv.command hexec
  · exact hinv.completeErr (.inl ⟨rfl, rfl⟩)
  · exact hinv

theorem RunInv.takeMemWrite {s : State} (hinv : RunInv s) (a : Word) (v : Byte) : RunInv (takeMemWrite a v s) :=
  hinv.of_keepsResultsAndBusy (.refl s) (Memory.write_word_wf hinv.memory) hinv.status (fun _ => ⟨rfl, fun _ => rfl⟩)
    (fun hidle => ⟨rfl, by simp [runningDeclares_of_idle hidle]⟩) id

theorem RunInv.takeBusError {s t : State} {a : Word} (hinv : RunInv s) (h : takeBusError a s = .next t) : RunInv t := by
  rcases takeBusError_cases h with rfl | ⟨c, -, -, -, -, rfl⟩
  · exact hinv
  · exact (hinv.completeErr (.inr (.inr rfl))).withRecordedFault _

theorem RunInv.takeNoAnswer {s : State} (hinv : RunInv s) (a : Word) : RunInv (takeNoAnswer a s) := by
  have hidle : s.status.busy = false → (Machine.takeNoAnswer a s).seq.reads = s.seq.reads := fun hidle => by
    rw [takeNoAnswer_of_idle hidle]
  rw [takeNoAnswer_frame]
  exact hinv.of_keepsResultsAndBusy (.refl s) hinv.memory hinv.status (fun _ => ⟨rfl, fun _ => rfl⟩)
    (fun h => ⟨hidle h, rfl⟩) id

theorem RunInv.takeResetInput {s : State} (hinv : RunInv s) (asserted : Bool) : RunInv (takeResetInput asserted s) := by
  cases asserted
  case false =>
    exact hinv.of_keepsResultsAndBusy (.refl s) hinv.memory hinv.status (fun _ => ⟨rfl, fun _ => rfl⟩) (fun _ => ⟨rfl, rfl⟩) nofun
  case true =>
    exact {
      memory := hinv.memory
      status := show Status.reset.toWord ∈ statusValues by decide
      running := nofun
      idle := fun _ => ⟨rfl, rfl⟩
      held := fun _ => rfl
      errAddr := fun _ _ _ => rfl
      errResults := fun _ _ => ⟨rfl, rfl⟩
      sentinel := nofun
      entropyHigh := Nat.zero_le _ }

/-- Settles O14: by cases on the turn a step takes, each of which keeps the invariant. -/
theorem stepKeepsTheInvariant : Obligations.StepKeepsTheInvariant := by
  intro s t hinv hstep
  rcases step_cases hstep with ⟨-, hcore⟩ | ⟨ts, -, hcore⟩ | ⟨a, i, ts, -, hreset, hdecode, hexec⟩ | ⟨a, v, ts, -, rfl⟩ |
    ⟨a, ts, -, hbus⟩ | ⟨a, ts, -, rfl⟩ | ⟨asserted, ts, -, rfl⟩
  · exact hinv.takeCore hcore
  · exact (hinv.withTurns ts).takeCore hcore
  · exact (hinv.withTurns ts).transaction hreset (exec_transactionEffect (decodeAccess_isTransaction hdecode) hexec)
  · exact (hinv.withTurns ts).takeMemWrite a v
  · exact (hinv.withTurns ts).takeBusError hbus
  · exact (hinv.withTurns ts).takeNoAnswer a
  · exact (hinv.withTurns ts).takeResetInput asserted

end Sys2Proof.Safety
end

section
/-! The turns of the outside world and of the core engine, one step each (R65, R109, R111, R220 to R223). -/

namespace Sys2Proof.Machine

open Sys2Proof.Safety

theorem step_of_no_turn {s : State} (h : s.turns = []) : step s = takeCore s := by
  simp [step, advance, h]

theorem step_of_turn {s : State} {turn : Turn} {rest : List Turn} (h : s.turns = turn :: rest) :
    step s = takeTurn turn { s with turns := rest } := by
  simp [step, advance, h]

/-- The core's turn, taken because it is next or because none is pending, leaves the turns after it (R111). -/
theorem step_of_core_turn {s : State} (h : s.turns = [] ∨ s.turns.head? = some .core) :
    step s = takeCore { s with turns := s.turns.tail } := by
  rcases h with hnil | hhead
  · have hsame : { s with turns := s.turns.tail } = s := by rw [hnil, List.tail_nil, ← hnil]
    rw [hsame, step_of_no_turn hnil]
  · exact step_of_turn (List.eq_cons_of_mem_head? hhead)

/-- The core's turn runs the command whose opcode is latched (R109). -/
theorem takeCore_of_running {s : State} {c : Command} (hbusy : s.status.busy = true) (hop : s.seq.op = c.op) :
    takeCore s = exec c.toInstr s := by
  simp [takeCore, hbusy, runningWord, hop]

/-- Settles O5: the access is accepted by the decoder, so the turn is its transaction. -/
theorem stepTakesTheDecodedTransaction : Obligations.StepTakesTheDecodedTransaction := by
  intro s a i rest hturns hreset hwidth hdecode
  have haccess : decodeAccess a = .ok i := by rw [decodeAccess, if_pos hwidth, hdecode]
  rw [step_of_access hturns]
  exact takeAccess_of_ok hreset haccess

/-- Settles O6: an empty list of turns gives the core its turn, and the turn runs the latched command. -/
theorem stepRunsTheLatchedCommand : Obligations.StepRunsTheLatchedCommand := by
  intro s c hbusy hop
  refine ⟨fun hnil => ?_, fun rest hcore => ?_⟩
  · rw [step_of_no_turn hnil]
    exact takeCore_of_running hbusy hop
  · rw [step_of_turn hcore]
    exact takeCore_of_running (s := { s with turns := rest }) hbusy hop

/-- Settles O7: the core's turn is empty while nothing runs. -/
theorem idleStepChangesNothing : Obligations.IdleStepChangesNothing := by
  intro s hidle
  refine ⟨fun hnil => ?_, fun rest hcore => ?_⟩
  · rw [step_of_no_turn hnil]
    exact takeCore_of_idle hidle
  · rw [step_of_turn hcore]
    exact takeCore_of_idle (s := { s with turns := rest }) hidle

/-- Settles O9: the turn looks at the reset input before it decodes, and no instruction writes the input. -/
theorem accessDuringResetIsRefused : Obligations.AccessDuringResetIsRefused := by
  refine ⟨fun s a rest hturns hreset => ?_, fun i s t hexec => ?_⟩
  · rw [step_of_access hturns]
    simp [takeAccess, hreset]
  · obtain ⟨-, -, hreset, -⟩ := exec_frame hexec
    exact hreset

/-- Settles O10: memory is as after the one write, and the sequencer's record is the only other change. -/
theorem memoryTurnWritesOneByte : Obligations.MemoryTurnWritesOneByte := by
  intro s a v rest hturns hwf
  refine ⟨_, step_of_turn hturns, fun b => ?_, rfl, by constructor <;> rfl, ⟨rfl, rfl, rfl, rfl, rfl⟩, rfl,
    fun hidle => runningDeclares_of_idle hidle _, fun c hbusy hop => runningDeclares_of_running hbusy hop _⟩
  rw [takeMemWrite_mem]
  split
  case isTrue hb => exact hb ▸ Memory.read_write_same hwf
  case isFalse hb => exact Memory.read_write_other hb

/-! ## The reset input -/

/-- What a reset records of a command without a fault (log 18). -/
theorem runningFault_eq_none {s : State} {c : Command} (hbusy : s.status.busy = true) (hop : s.seq.op = c.op) :
    runningFault s = none ↔
      (∀ a, declares c s a = true → memIdempotent s.platform a = true ∧ memReadable s.platform a = true) ∧ s.seq.raced = false := by
  rw [runningFault_of_running hbusy hop, commandFault_eq_none, declaredAll_iff, declaredAll_iff]
  simp only [imp_and, forall_and]
  tauto

/-- Settles O11: the fields are those of the reset state, and the record is the running command's fault if it has one. -/
theorem resetInputResetsTheInstance : Obligations.ResetInputResetsTheInstance := by
  refine ⟨fun s rest hturns => ?_, fun s rest hturns => step_of_turn hturns⟩
  have hstatus : Status.reset.toWord = 0x00000000#32 := by decide
  have hrecord : (takeResetInput true { s with turns := rest }).recordedFault = (runningFault s).or s.recordedFault := rfl
  refine ⟨_, step_of_turn hturns, rfl, hstatus, rfl, rfl, rfl, rfl, rfl, rfl, rfl, rfl, rfl, rfl, rfl, rfl, rfl, rfl, rfl, rfl,
    fun hidle => hrecord.trans ?_, fun c hbusy hop => ⟨fun hclean hraced => hrecord.trans ?_, fun hfaulty hnone => ?_⟩⟩
  · rw [runningFault_of_idle hidle, Option.none_or]
  · rw [(runningFault_eq_none hbusy hop).mpr ⟨hclean, hraced⟩, Option.none_or]
  · obtain ⟨hfault, -⟩ := Option.or_eq_none_iff.mp (hrecord.symm.trans hnone)
    obtain ⟨hclean, hraced⟩ := (runningFault_eq_none hbusy hop).mp hfault
    rcases hfaulty with ⟨a, hdeclared, hbad⟩ | hrace
    · obtain ⟨hidempotent, hreadable⟩ := hclean a hdeclared
      simp [hidempotent, hreadable] at hbad
    · simp [hraced] at hrace

/-- Settles O12: each read answers with its field's reset value. -/
theorem resetStateReadsTheResetColumn : Obligations.ResetStateReadsTheResetColumn := by
  simp only [Obligations.ResetStateReadsTheResetColumn, List.mem_cons, Prod.mk.injEq, List.not_mem_nil, or_false]
  rintro i v (⟨rfl, rfl⟩ | ⟨rfl, rfl⟩ | ⟨rfl, rfl⟩ | ⟨rfl, rfl⟩ | ⟨rfl, rfl⟩ | ⟨rfl, rfl⟩ | ⟨rfl, rfl⟩ | ⟨rfl, rfl⟩ |
    ⟨rfl, rfl⟩ | ⟨rfl, rfl⟩ | ⟨rfl, rfl⟩) <;> rfl

end Sys2Proof.Machine
end

section
/-! Commands: their frame, the registers they do not use, and the runs that end with a fault, with BUS or not at all (R107, R112,
R114, R193 to R196, R232). -/

namespace Sys2Proof.Machine

open Sys2Proof.Safety

/-! ## The frame of a command -/

/-- Which scan items a rule leaves alone (log 6). -/
theorem completionOf_seq (c : Command) (s : State) :
    (completionOf c s).seq.op = s.seq.op ∧ (c ≠ .crc32 → (completionOf c s).seq.crc = s.seq.crc) ∧
      (c ≠ .search → (completionOf c s).seq.cand = s.seq.cand) ∧ (c ≠ .entropy → (completionOf c s).seq.hist = s.seq.hist) := by
  cases c
  case search =>
    simp only [completionOf, searchCompletion]
    cases searchOffset s <;> simp
  all_goals simp [completionOf, crcCompletion, cmpCompletion, entropyCompletion]

theorem keepsInputs_refl (s : State) : KeepsInputs s s := by
  constructor <;> rfl

/-- Settles O50: an error and a wait keep the scan items, and a completion changes those its rule writes. -/
theorem commandFrame : Obligations.CommandFrame := by
  intro c s t hexec
  rw [exec_toInstr] at hexec
  rcases runCommand_next hexec with ⟨a, -, rfl⟩ | ⟨-, -, rfl⟩ | ⟨-, -, rfl⟩
  · exact ⟨(completeErr_failedWith errRange a s).inputs, rfl, fun _ => rfl, fun _ => rfl, fun _ => rfl⟩
  · exact ⟨keepsInputs_refl t, rfl, fun _ => rfl, fun _ => rfl, fun _ => rfl⟩
  · exact ⟨(finish_completedWith _ s).inputs, completionOf_seq c s⟩

/-- Settles O30: the rules of the three commands do not read the register, so the difference is carried along. -/
theorem unusedOperandsHaveNoEffect : Obligations.UnusedOperandsHaveNoEffect := by
  intro s v w
  refine ⟨rfl, rfl, rfl, rfl, ?_, ?_, ?_⟩
  · exact runCommand_congr (fun t => { t with bAddr := v, bLen := w }) rfl rfl (fun _ _ => rfl) rfl rfl rfl
  · exact runCommand_congr (fun t => { t with bAddr := v, bLen := w }) rfl rfl (fun _ _ => rfl) rfl rfl rfl
  · exact runCommand_congr (fun t => { t with bLen := w }) rfl rfl (fun _ _ => rfl) rfl rfl rfl

/-! ## Faults of a run -/

/-- A property that fails at a declared address does not hold of all of them. -/
theorem declaredAll_eq_false {c : Command} {s : State} {a : Nat} {p : Nat → Bool} (hdeclared : declares c s a = true)
    (hfails : p a = false) : declaredAll c s p = false := by
  rw [← Bool.not_eq_true, declaredAll_iff]
  exact fun hall => Bool.false_ne_true (hfails.symm.trans (hall a hdeclared))

/-- A command whose operands fit and that has a fault ends with it (R194 to R196). -/
theorem exec_of_commandFault {c : Command} {s : State} {f : Fault} (hrange : rangeFailure c s = none)
    (hfault : commandFault c s = some f) : exec c.toInstr s = .fault f := by
  simp [exec_toInstr, runCommand, hrange, hfault]

theorem commandFault_of_accessFault {c : Command} {s : State} {f : Fault} (h : accessFault c s = some f) :
    commandFault c s = some f := by
  simp [commandFault, h]

/-- Settles O52: with no side effect and no race, the unreadable byte is the fault. -/
theorem unreadableDeclaredByteFaults : Obligations.UnreadableDeclaredByteFaults := by
  intro c s a hrange hidempotent hraced hdeclared hunreadable
  refine exec_of_commandFault hrange ?_
  simp [commandFault, accessFault_eq_none.mpr ⟨hidempotent, hraced⟩, declaredAll_eq_false hdeclared hunreadable]

/-- With no side effect, a written byte is the access fault (R195). -/
theorem accessFault_of_raced {c : Command} {s : State} (hidempotent : declaredAll c s (memIdempotent s.platform) = true)
    (hraced : s.seq.raced = true) : accessFault c s = some .declaredByteWritten := by
  simp [accessFault, hidempotent, hraced]

/-- The core's turn is the fault of the running command, if it has one and its operands fit. -/
theorem takeCore_of_accessFault {c : Command} {s : State} {f : Fault} (hbusy : s.status.busy = true) (hop : s.seq.op = c.op)
    (hrange : rangeFailure c s = none) (hfault : accessFault c s = some f) : takeCore s = .fault f :=
  (takeCore_of_running hbusy hop).trans (exec_of_commandFault hrange (commandFault_of_accessFault hfault))

/-- A write of a declared byte of the running command is recorded (R60). -/
theorem takeMemWrite_raced {c : Command} {s : State} {a : Word} (hbusy : s.status.busy = true) (hop : s.seq.op = c.op)
    (hdeclared : declares c s a.toNat = true) (v : Byte) : (takeMemWrite a v s).seq.raced = true := by
  simp [runningDeclares_of_running hbusy hop, hdeclared]

/-- Settles O53: the write sets the record of a race, which the core's turn right after it finds. -/
theorem declaredByteWrittenWhileBusyFaults : Obligations.DeclaredByteWrittenWhileBusyFaults := by
  intro c s a v rest hturns hbusy hop hrange hidempotent hdeclared
  have hraced := takeMemWrite_raced (s := { s with turns := .core :: rest }) hbusy hop hdeclared v
  have hfault : takeCore { takeMemWrite a v { s with turns := .core :: rest } with turns := rest } = .fault .declaredByteWritten :=
    takeCore_of_accessFault hbusy hop hrange (accessFault_of_raced hidempotent hraced)
  exact ⟨_, step_of_turn hturns, (step_of_turn (turn := .core) (rest := rest) rfl).trans hfault⟩

/-- The register window counts as side-effecting memory (R46). -/
theorem memIdempotent_eq_false {p : Platform} {a : Nat}
    (h : memIdempotent p a = false ∨ p.zcBase.toNat ≤ a ∧ a < p.zcBase.toNat + 0x40) : memIdempotent p a = false := by
  rcases h with h | ⟨hlo, hhi⟩
  · exact h
  · simp [memIdempotent, windowRegion, Region.contains, Config.windowBytes, hlo, hhi]

/-- Settles O54: a side effect is looked at first, and the window has side effects. -/
theorem sideEffectingDeclaredByteFaults : Obligations.SideEffectingDeclaredByteFaults := by
  intro c s a hrange hdeclared hside
  refine exec_of_commandFault hrange (commandFault_of_accessFault ?_)
  simp [accessFault, declaredAll_eq_false hdeclared (memIdempotent_eq_false hside)]

/-! ## BUS and reads without an answer -/

/-- With no fault that stands before memory's answers and every read answered, a bus error ends the command with BUS (R193). -/
theorem completeBus_of_answered {c : Command} {s : State} (hidempotent : declaredAll c s (memIdempotent s.platform) = true)
    (hraced : s.seq.raced = false) (hreads : s.seq.reads = .answered) (a : Word) :
    completeBus c a s = .next { completeErr errBus a s with recordedFault := some .unreadableDeclaredByte } := by
  simp [completeBus, accessFault_eq_none.mpr ⟨hidempotent, hraced⟩, awaitsAnswer, hreads]

/-- A sequencer with every read answered and no race is settled. -/
theorem Sequencer.settled_eq_self {q : Sequencer} (hreads : q.reads = .answered) (hraced : q.raced = false) : q.settled = q := by
  rw [Sequencer.settled, ← hreads, ← hraced]

/-- STATUS after BUS (R193). -/
theorem Status.toWord_bus : (Status.completedErr errBus).toWord = 0x00000304#32 := by decide

/-- A bus error at an unreadable declared byte ends the running command (R193). -/
theorem takeBusError_of_unreadable {c : Command} {s : State} {a : Word} (hbusy : s.status.busy = true) (hop : s.seq.op = c.op)
    (hdeclared : declares c s a.toNat = true) (hunreadable : memReadable s.platform a.toNat = false) :
    takeBusError a s = completeBus c a s := by
  simp [takeBusError, runningCommand_eq_some.mpr ⟨hbusy, hop⟩, hdeclared, hunreadable]

/-- A bus error elsewhere has no effect (R56). -/
theorem takeBusError_elsewhere {c : Command} {s : State} {a : Word} (hbusy : s.status.busy = true) (hop : s.seq.op = c.op)
    (h : declares c s a.toNat = false ∨ memReadable s.platform a.toNat = true) : takeBusError a s = .next s := by
  rcases h with h | h <;> simp [takeBusError, runningCommand_eq_some.mpr ⟨hbusy, hop⟩, h]

/-- Settles O51: the turn ends the command where the address is declared and unreadable, and is empty elsewhere. -/
theorem reportedBusErrorCompletes : Obligations.ReportedBusErrorCompletes := by
  intro s a rest hturns
  have hstep : step s = takeBusError a { s with turns := rest } := step_of_turn hturns
  rw [hstep]
  refine ⟨fun c hbusy hop hidempotent hraced hreads hdeclared hunreadable => ?_,
    fun hidle => takeBusError_of_idle (s := { s with turns := rest }) hidle a,
    fun c hbusy hop hother => takeBusError_elsewhere (s := { s with turns := rest }) hbusy hop hother⟩
  have hends := (takeBusError_of_unreadable (s := { s with turns := rest }) hbusy hop hdeclared hunreadable).trans
    (completeBus_of_answered (s := { s with turns := rest }) hidempotent hraced hreads a)
  exact ⟨_, hends, completeErr_failedWith errBus a { s with turns := rest, recordedFault := some .unreadableDeclaredByte },
    Status.toWord_bus, Sequencer.settled_eq_self hreads hraced⟩

/-- A read of a declared byte that is never answered is recorded (R232). -/
theorem takeNoAnswer_of_declared {c : Command} {s : State} {a : Word} (hbusy : s.status.busy = true) (hop : s.seq.op = c.op)
    (hdeclared : declares c s a.toNat = true) :
    takeNoAnswer a s = { s with seq := { s.seq with reads := .unanswered a } } := by
  simp [takeNoAnswer, runningDeclares_of_running hbusy hop, hdeclared]

/-- The core reads declared addresses only (R56). -/
theorem takeNoAnswer_of_undeclared {c : Command} {s : State} {a : Word} (hbusy : s.status.busy = true) (hop : s.seq.op = c.op)
    (hundeclared : declares c s a.toNat = false) : takeNoAnswer a s = s := by
  simp [takeNoAnswer, runningDeclares_of_running hbusy hop, hundeclared]

/-- A running command without a fault whose read is not answered does not end (R232). -/
theorem takeCore_of_awaitsAnswer {c : Command} {s : State} (hbusy : s.status.busy = true) (hop : s.seq.op = c.op)
    (hrange : rangeFailure c s = none) (hfault : commandFault c s = none) (hwaits : awaitsAnswer c s = true) :
    takeCore s = .next s := by
  rw [takeCore_of_running hbusy hop]
  simp [exec_toInstr, runCommand, hrange, hfault, hwaits]

theorem awaitsAnswer_of_unanswered {c : Command} {s : State} {a : Word} (hreads : s.seq.reads = .unanswered a)
    (hdeclared : declares c s a.toNat = true) : awaitsAnswer c s = true := by
  simp [awaitsAnswer, hreads, hdeclared]

/-- Settles O55: the memory's turn sets the record where the address is declared, and a run that finds it there waits. -/
theorem unansweredReadLeavesTheCommandRunning : Obligations.UnansweredReadLeavesTheCommandRunning := by
  refine ⟨fun s a rest hturns => ?_, fun c s a hcore hbusy hop hrange hidempotent hraced hreadable hreads hdeclared => ?_⟩
  · have hstep : step s = .next (takeNoAnswer a { s with turns := rest }) := step_of_turn hturns
    rw [hstep]
    exact ⟨fun hidle => congrArg _ (takeNoAnswer_of_idle (s := { s with turns := rest }) hidle a), fun c hbusy hop =>
      ⟨fun hdeclared => congrArg _ (takeNoAnswer_of_declared (s := { s with turns := rest }) hbusy hop hdeclared),
        fun hundeclared => congrArg _ (takeNoAnswer_of_undeclared (s := { s with turns := rest }) hbusy hop hundeclared)⟩⟩
  · have hfault : commandFault c s = none := commandFault_eq_none.mpr ⟨hidempotent, hraced, hreadable⟩
    rw [step_of_core_turn hcore]
    exact takeCore_of_awaitsAnswer (s := { s with turns := s.turns.tail }) hbusy hop hrange hfault
      (awaitsAnswer_of_unanswered hreads hdeclared)

end Sys2Proof.Machine
end

section
/-! The whole machine: when BUSY changes, what a running command ends with, and the interrupt output (R25, R111, R200, R201). -/

namespace Sys2Proof.Machine

open Sys2Proof.Safety

/-! ## When BUSY changes -/

/-- BUSY rises by no transaction but a request that starts a command, and falls by none (R101, R108). -/
theorem TransactionEffect.busy_cases {s t : State} {i : Instr} (h : TransactionEffect s i t) :
    t.status.busy = s.status.busy ∨
      ∃ c : Command, i = .wrCmd (0#28 ++ c.op) ∧ s.status.busy = false ∧ rangeFailure c s = none ∧ t = startCommand c s := by
  cases h with
  | request w =>
    rcases requestCommand_cases w s with ⟨-, heq⟩ | ⟨hidle, -, heq⟩ | ⟨c, a, hidle, -, -, heq⟩ | ⟨c, hidle, hword, hrange, heq⟩ <;>
      rw [heq]
    · exact .inl rfl
    · exact .inl hidle.symm
    · exact .inl hidle.symm
    · exact .inr ⟨c, congrArg _ (Command.ofWord_eq_some.mp hword), hidle, hrange, rfl⟩
  | _ => exact .inl rfl

/-- A read without an answer leaves STATUS alone. -/
theorem takeNoAnswer_status (a : Word) (s : State) : (takeNoAnswer a s).status = s.status := by
  rw [takeNoAnswer_frame]

/-- What the next turn is when a step ends the running command. -/
inductive EndingTurn (s : State) : Prop where
  /-- The core's turn, next or by an empty list. -/
  | core (h : s.turns = [] ∨ s.turns.head? = some .core)
  /-- The reset input is asserted. -/
  | reset (h : s.turns.head? = some (.resetInput true))
  /-- A bus error at an unreadable declared byte. -/
  | busError (c : Command) (a : Word) (h : s.turns.head? = some (.busError a)) (hop : s.seq.op = c.op)
      (hdeclared : declares c s a.toNat = true) (hunreadable : memReadable s.platform a.toNat = false)

/-- Where BUSY rises over a step, a CMD write started a command. -/
theorem step_busy_rises {s t : State} (hidle : s.status.busy = false) (hstep : step s = .next t) (hbusy : t.status.busy = true) :
    ∃ (a : Access) (c : Command) (ts : List Turn), s.turns = .access a :: ts ∧ decodeAccess a = .ok (.wrCmd (0#28 ++ c.op)) ∧
      rangeFailure c s = none ∧ t = startCommand c { s with turns := ts } := by
  rcases step_cases hstep with ⟨-, hcore⟩ | ⟨ts, -, hcore⟩ | ⟨a, i, ts, hturns, -, hdecode, hexec⟩ | ⟨a, v, ts, -, rfl⟩ |
    ⟨a, ts, -, hbus⟩ | ⟨a, ts, -, rfl⟩ | ⟨asserted, ts, -, rfl⟩
  · cases (takeCore_of_idle hidle).symm.trans hcore
    simp [hidle] at hbusy
  · cases (takeCore_of_idle (s := { s with turns := ts }) hidle).symm.trans hcore
    simp [hidle] at hbusy
  · rcases (exec_transactionEffect (decodeAccess_isTransaction hdecode) hexec).busy_cases with hkeep | ⟨c, rfl, -, hrange, rfl⟩
    · simp [hkeep, hidle] at hbusy
    · exact ⟨a, c, ts, hturns, hdecode, hrange, rfl⟩
  · simp [hidle] at hbusy
  · cases (takeBusError_of_idle (s := { s with turns := ts }) hidle a).symm.trans hbus
    simp [hidle] at hbusy
  · simp [takeNoAnswer_status, hidle] at hbusy
  · cases asserted <;> simp [takeResetInput, hidle] at hbusy

/-- Where BUSY falls over a step, the turn was one that ends the running command. -/
theorem step_busy_falls {s t : State} (hbusy : s.status.busy = true) (hstep : step s = .next t) (hidle : t.status.busy = false) :
    EndingTurn s := by
  rcases step_cases hstep with ⟨hturns, -⟩ | ⟨ts, hturns, -⟩ | ⟨a, i, ts, -, -, hdecode, hexec⟩ | ⟨a, v, ts, -, rfl⟩ |
    ⟨a, ts, hturns, hbus⟩ | ⟨a, ts, -, rfl⟩ | ⟨asserted, ts, hturns, rfl⟩
  · exact .core (.inl hturns)
  · exact .core (.inr (by simp [hturns]))
  · rcases (exec_transactionEffect (decodeAccess_isTransaction hdecode) hexec).busy_cases with hkeep | ⟨c, -, hidle', -⟩
    · simp [hkeep, hbusy] at hidle
    · simp [hbusy] at hidle'
  · simp [hbusy] at hidle
  · rcases takeBusError_cases hbus with rfl | ⟨c, -, hop, hdeclared, hunreadable, -⟩
    · simp [hbusy] at hidle
    · exact .busError c a (by simp [hturns]) hop hdeclared hunreadable
  · simp [takeNoAnswer_status, hbusy] at hidle
  · cases asserted
    case false => simp [takeResetInput, hbusy] at hidle
    case true => exact .reset (by simp [hturns])

/-- Settles O58: only an accepted request starts a command, and only an ending turn ends one. -/
theorem busyChangesOnlyByRequestCompletionOrReset : Obligations.BusyChangesOnlyByRequestCompletionOrReset := by
  refine ⟨fun s t hidle hstep hbusy => ?_, fun s t hbusy hstep hidle => ?_⟩
  · obtain ⟨a, c, ts, hturns, hdecode, hrange, rfl⟩ := step_busy_rises hidle hstep hbusy
    exact ⟨a, c, by simp [hturns], hdecode, hrange, rfl⟩
  · cases step_busy_falls hbusy hstep hidle with
    | core h => exact h.imp_right .inl
    | reset h => exact .inr (.inr (.inl h))
    | busError c a h hop hdeclared hunreadable => exact .inr (.inr (.inr ⟨c, a, h, hop, hdeclared, hunreadable⟩))

/-! ## Transactions beside a running command (R111) -/

/-- In a state of a run a transaction made while BUSY changes CTRL, the response and the count of draws alone. -/
theorem TransactionEffect.of_running {s t : State} {i : Instr} (hinv : RunInv s) (hbusy : s.status.busy = true)
    (h : TransactionEffect s i t) : t = { s with irqEn := t.irqEn, response := t.response, draws := t.draws } := by
  cases h with
  | answer | control => rfl
  | status v => simp only [writeOneToClear_of_running hinv hbusy]
  | request w => rw [requestCommand_of_busy hbusy]
  | aAddr v hidle | aLen v hidle | bAddr v hidle | bLen v hidle => simp [hbusy] at hidle

/-- CTRL, the host's response and the count of draws have no part in a command's run. -/
theorem exec_toInstr_withHostSide (c : Command) (s : State) (e : Bool) (r : Option Word) (n : Nat) :
    exec c.toInstr { s with irqEn := e, response := r, draws := n } =
      mapNext (fun u => { u with irqEn := e, response := r, draws := n }) (exec c.toInstr s) := by
  rw [exec_toInstr, exec_toInstr]
  refine runCommand_congr (fun u => { u with irqEn := e, response := r, draws := n }) rfl ?_ (fun _ _ => rfl) ?_ rfl rfl
  all_goals cases c <;> rfl

/-- Settles O59: the transaction changes only what no command reads. -/
theorem transactionsDoNotDisturbTheRunningCommand : Obligations.TransactionsDoNotDisturbTheRunningCommand := by
  intro i c s t hinv hbusy htxn hexec
  have hsame := (exec_transactionEffect htxn hexec).of_running hinv hbusy
  rw [hsame]
  exact exec_toInstr_withHostSide c s t.irqEn t.response t.draws

/-! ## The interrupt output (R200, R201) -/

/-- IRQ is raised by every completion of a running command: the turn that ends it sets DONE or ERR. -/
theorem takeCore_raises {s t : State} (hen : s.irqEn = true) (hbusy : s.status.busy = true) (h : takeCore s = .next t)
    (hidle : t.status.busy = false) : irq t = true := by
  rcases takeCore_cases h with ⟨c, -, -, hexec⟩ | ⟨-, -, rfl⟩ | ⟨hidle', -⟩
  · rw [exec_toInstr] at hexec
    rcases runCommand_next hexec with ⟨a, -, rfl⟩ | ⟨-, -, rfl⟩ | ⟨-, -, rfl⟩
    · simp [irq, hen]
    · simp [hbusy] at hidle
    · simp [irq, hen]
  · simp [irq, hen]
  · simp [hbusy] at hidle'

theorem takeBusError_raises {s t : State} {a : Word} (hen : s.irqEn = true) (hbusy : s.status.busy = true)
    (h : takeBusError a s = .next t) (hidle : t.status.busy = false) : irq t = true := by
  rcases takeBusError_cases h with rfl | ⟨c, -, -, -, -, rfl⟩
  · simp [hbusy] at hidle
  · simp [irq, hen]

/-- Of the turns that end a running command, the core's and a bus error's raise IRQ. -/
theorem step_raises {s t : State} (hen : s.irqEn = true) (hbusy : s.status.busy = true) (hstep : step s = .next t)
    (hidle : t.status.busy = false) (hreset : s.turns.head? ≠ some (.resetInput true)) : irq t = true := by
  cases step_busy_falls hbusy hstep hidle with
  | core h =>
    rw [step_of_core_turn h] at hstep
    exact takeCore_raises (s := { s with turns := s.turns.tail }) hen hbusy hstep hidle
  | reset h => exact absurd h hreset
  | busError c a h =>
    rw [step_of_turn (List.eq_cons_of_mem_head? h)] at hstep
    exact takeBusError_raises (s := { s with turns := s.turns.tail }) hen hbusy hstep hidle

/-- With interrupts enabled an accepted request raises IRQ by an immediate error, and lowers it by starting a command. -/
theorem irq_requestCommand {s : State} (hen : s.irqEn = true) (hidle : s.status.busy = false) (w : Word) :
    irq (requestCommand w s) = !(requestCommand w s).status.busy := by
  rcases requestCommand_cases w s with ⟨hbusy, -⟩ | ⟨-, -, heq⟩ | ⟨c, a, -, -, -, heq⟩ | ⟨c, -, -, -, heq⟩
  · simp [hidle] at hbusy
  all_goals simp [heq, irq, hen]

/-- Settles O60: IRQ is read off CTRL and STATUS, which each clause's instruction or turn sets. -/
theorem interruptFollowsCompletion : Obligations.InterruptFollowsCompletion := by
  refine ⟨fun s hoff => by simp [irq, hoff], fun s hinv hbusy => by simp [irq, status_of_running hinv hbusy],
    fun s w hen hidle => ⟨_, rfl, irq_requestCommand hen hidle w⟩,
    fun s c hen hrun => ⟨_, exec_of_runs hrun, by simp [irq, hen]⟩, fun s t => step_raises, fun s => ?_, fun s => ?_⟩
  · exact ⟨_, rfl, by simp [irq]⟩
  · exact ⟨_, _, rfl, rfl, rfl, rfl, rfl, rfl⟩

end Sys2Proof.Machine
end

section
/-! The encodings: the decoder takes back what the encoder gives, and nothing else (R80 to R87). -/

namespace Sys2Proof.Machine

/-- A TXN code is its W bit and its OFFSET (R82). -/
theorem txnCode_fields (txn : BitVec 7) : txnCode (txn.getLsbD 6) (txn.extractLsb' 0 6) = txn := by
  revert txn
  decide

/-- The decoder of both formats takes back the encoder's form (R81, R82). -/
theorem decode_encode (i : Instr) : decode (encode i) = .ok i := by
  cases i <;> rfl

/-- Settles O1: the access that carries a transaction has the transaction's own code. -/
theorem encodedInstructionsDecodeBack : Obligations.EncodedInstructionsDecodeBack := by
  refine ⟨fun i _ => decode_encode i, fun i txn data hencode => ?_⟩
  rw [decodeAccess, if_pos rfl, txnCode_fields, ← hencode]
  exact decode_encode i

/-! ## Command words (R84) -/

theorem Command.toInstr_injective : Function.Injective Command.toInstr := by
  intro c d h
  cases c <;> cases d <;> cases h <;> rfl

/-- A word decodes to a command's instruction exactly when it is the command's word. -/
theorem decode_cmd_eq_ok {w : Word} {c : Command} : decode (.cmd w) = .ok c.toInstr ↔ w = 0#28 ++ c.op := by
  rw [← Command.ofWord_eq_some, decode, decodeCommand]
  cases hword : Command.ofWord w with
  | none => simp
  | some d => simp [Command.toInstr_injective.eq_iff]

theorem decode_cmd_eq_error {w : Word} : decode (.cmd w) = .error .illegalCommand ↔ Command.ofWord w = none := by
  rw [decode, decodeCommand]
  cases Command.ofWord w <;> simp

/-- Settles O2: each legal word is its command's own, and the others request no command. -/
theorem exactlyFourCommandWordsAreLegal : Obligations.ExactlyFourCommandWordsAreLegal := by
  intro w
  refine ⟨decode_cmd_eq_ok (c := .crc32), decode_cmd_eq_ok (c := .cmp), decode_cmd_eq_ok (c := .search),
    decode_cmd_eq_ok (c := .entropy), ?_⟩
  rw [decode_cmd_eq_error, Command.ofWord_eq_none]
  simp

/-! ## TXN codes (R85) -/

/-- An entry of the transaction map is the instruction that encodes to its code; a write keeps its data word, and a read has
none (R82, R85). -/
theorem encode_of_decodeTxn {txn : BitVec 7} {data : Word} {i : Instr} (h : decodeTxn txn data = .ok i) :
    ∃ d, encode i = .bus txn d ∧ (txn.getLsbD 6 = true → d = data) := by
  unfold decodeTxn at h
  split at h
  case h_33 => cases h
  all_goals
    rename_i hcode
    have htxn := BitVec.ofNat_toNat 7 txn
    rw [hcode, BitVec.setWidth_eq] at htxn
    subst htxn
    cases h
    exact ⟨_, rfl, by simp⟩

/-- The low two bits of OFFSET are zero exactly when the code is a multiple of 4. -/
theorem extractLsb'_two_eq_zero (txn : BitVec 7) : txn.extractLsb' 0 2 = 0#2 ↔ txn.toNat % 4 = 0 := by
  rw [← BitVec.toNat_inj]
  simp

theorem decodeTxn_of_misaligned {txn : BitVec 7} {data : Word} (h : txn.toNat % 4 ≠ 0) :
    decodeTxn txn data = .error .misaligned := by
  unfold decodeTxn
  split
  case h_33 => rfl
  all_goals
    rename_i hcode
    simp [hcode] at h

/-- Settles O3: the transaction map has an entry for each aligned code, the one whose instruction has that code. -/
theorem alignedTransactionCodesDecode : Obligations.AlignedTransactionCodesDecode := by
  intro txn data
  rw [ne_eq, extractLsb'_two_eq_zero]
  refine ⟨fun haligned => ?_, decodeTxn_of_misaligned⟩
  obtain ⟨i, hdecode⟩ := (decodeTxn_ok_iff txn data).mpr haligned
  obtain ⟨d, hencode, hdata⟩ := encode_of_decodeTxn hdecode
  exact ⟨i, d, hdecode, hencode, hdata⟩

/-- Settles O4: the seven words, each looked up. -/
theorem writtenOutWordsDecode : Obligations.WrittenOutWordsDecode := by
  unfold Obligations.WrittenOutWordsDecode
  decide

end Sys2Proof.Machine
end

section
/-! CRC32 without the table: a table-driven update is eight rounds of the bitwise form (R141, R146, R147). -/

namespace Sys2Proof.Machine

open Sys2Proof.Safety

/-- Settles O32: the 256 entries, each computed. -/
theorem romHoldsTheGeneratedTable : Obligations.RomHoldsTheGeneratedTable := by
  unfold Obligations.RomHoldsTheGeneratedTable
  decide +kernel

/-! ## Rounds of the bitwise form -/

/-- A round is linear: it shifts, and adds the polynomial or not by one bit of its argument (R147). -/
theorem crcRound_xor (x y : Word) : crcRound (x ^^^ y) = crcRound x ^^^ crcRound y := by
  unfold crcRound
  rw [BitVec.getLsbD_xor, BitVec.ushiftRight_xor_distrib]
  cases x.getLsbD 0 <;> cases y.getLsbD 0
  case false.false => rfl
  case false.true => simp only [Bool.false_xor, if_true, Bool.false_eq_true, if_false]; ac_rfl
  case true.false => simp only [Bool.xor_false, if_true, Bool.false_eq_true, if_false]; ac_rfl
  case true.true =>
    simp only [Bool.xor_self, Bool.false_eq_true, if_true, if_false]
    calc x >>> 1 ^^^ y >>> 1 = (crcPolynomial ^^^ crcPolynomial) ^^^ (x >>> 1 ^^^ y >>> 1) := by rw [BitVec.xor_self, BitVec.zero_xor]
      _ = (crcPolynomial ^^^ x >>> 1) ^^^ (crcPolynomial ^^^ y >>> 1) := by ac_rfl

theorem crcRounds8_xor (x y : Word) : crcRounds8 (x ^^^ y) = crcRounds8 x ^^^ crcRounds8 y := by
  simp only [crcRounds8, crcRound_xor]

/-- While no 1 falls out, rounds only shift. -/
theorem iterate_crcRound_of_low_zeros {c : Word} {n : Nat} (h : ∀ i < n, c.getLsbD i = false) : crcRound^[n] c = c >>> n := by
  induction n with
  | zero => simp
  | succ n ih =>
    have hbit : (c >>> n).getLsbD 0 = false := by
      rw [BitVec.getLsbD_ushiftRight, Nat.add_zero]
      exact h n n.lt_succ_self
    rw [Function.iterate_succ_apply', ih fun i hi => h i (hi.trans n.lt_succ_self), crcRound, hbit, if_neg Bool.false_ne_true,
      BitVec.shiftRight_add]

/-! ## One byte -/

theorem getLsbD_byteMask (i : Nat) : (0xFF#32).getLsbD i = decide (i < 8) :=
  Nat.testBit_two_pow_sub_one 8 i

/-- A word is its low byte and the rest. -/
theorem low_xor_high (w : Word) : (w &&& 0xFF#32) ^^^ (w &&& ~~~0xFF#32) = w := by
  ext i hi
  simp only [BitVec.getElem_xor, BitVec.getElem_and, BitVec.getElem_not]
  cases w[i] <;> simp

/-- The table holds the rounds of every low byte (R141). -/
theorem crcEntry_low (w : Word) : crcEntry (w &&& 0xFF#32).toNat = crcRounds8 (w &&& 0xFF#32) := by
  obtain ⟨-, htable⟩ := romHoldsTheGeneratedTable
  have hlt : (w &&& 0xFF#32).toNat < 256 := by
    rw [BitVec.toNat_and]
    exact Nat.lt_succ_of_le Nat.and_le_right
  rw [htable _ hlt, BitVec.ofNat_toNat, BitVec.setWidth_eq]

/-- The rounds of the rest shift it down; the byte that was added is not in it. -/
theorem crcRounds8_high (crc : Word) (b : Byte) : crcRounds8 ((crc ^^^ b.setWidth 32) &&& ~~~0xFF#32) = crc >>> 8 := by
  have hlow : ∀ i < 8, ((crc ^^^ b.setWidth 32) &&& ~~~0xFF#32).getLsbD i = false := fun i hi => by
    rw [BitVec.getLsbD_and, BitVec.getLsbD_not, getLsbD_byteMask]
    simp [hi]
  have hshift : ((crc ^^^ b.setWidth 32) &&& ~~~0xFF#32) >>> 8 = crc >>> 8 := by
    apply BitVec.eq_of_getLsbD_eq
    intro i hi
    simp only [BitVec.getLsbD_ushiftRight, BitVec.getLsbD_and, BitVec.getLsbD_not, BitVec.getLsbD_xor, BitVec.getLsbD_setWidth,
      getLsbD_byteMask, b.getLsbD_of_ge (8 + i) (Nat.le_add_right 8 i)]
    by_cases h : 8 + i < 32
    · simp [h]
    · simp [h, crc.getLsbD_of_ge (8 + i) (Nat.le_of_not_lt h)]
  exact (iterate_crcRound_of_low_zeros hlow).trans hshift

/-- Settles O33: the rounds are linear, so the low byte and the rest are taken apart; the table has the first, a shift is the second. -/
theorem tableStepIsTheBitwiseStep : Obligations.TableStepIsTheBitwiseStep := by
  intro crc b
  calc crcStep crc b = crcRounds8 ((crc ^^^ b.setWidth 32) &&& 0xFF#32) ^^^ (crc >>> 8) := by rw [crcStep, crcEntry_low]
    _ = crcRounds8 (crc ^^^ b.setWidth 32) := by rw [← crcRounds8_high crc b, ← crcRounds8_xor, low_xor_high]

/-- Settles O34: byte by byte, the table's update is the bitwise one. -/
theorem checksumIsTheBitwiseChecksum : Obligations.ChecksumIsTheBitwiseChecksum := by
  intro s hrun
  have hstep : crcStep = fun crc b => crcRounds8 (crc ^^^ b.setWidth 32) :=
    funext₂ tableStepIsTheBitwiseStep
  refine ⟨_, exec_of_runs hrun, ?_⟩
  change ~~~ crcRegister (buffer s s.aAddr s.aLen) = _
  rw [crcRegister, hstep]
  rfl

end Sys2Proof.Machine
end

section
/-! CMP as an order of numbers (R52, R156), and SEARCH beside CMP and within its own haystack (R165, R167, R168). -/

namespace Sys2Proof.Machine

open Sys2Proof.Safety

/-! ## Bytes packed most significant first (R52) -/

/-- Bytes packed after others: the others move up one byte for each. -/
theorem packBigEndian_from (acc : Nat) (bytes : List Byte) :
    bytes.foldl (fun acc b => acc * 256 + b.toNat) acc = acc * 256 ^ bytes.length + packBigEndian bytes := by
  induction bytes generalizing acc with
  | nil => simp [packBigEndian]
  | cons b bytes ih =>
    rw [packBigEndian, List.foldl_cons, List.foldl_cons, ih, ih (0 * 256 + b.toNat), List.length_cons]
    ring

theorem packBigEndian_cons (b : Byte) (bytes : List Byte) :
    packBigEndian (b :: bytes) = b.toNat * 256 ^ bytes.length + packBigEndian bytes := by
  rw [packBigEndian, List.foldl_cons, packBigEndian_from, Nat.zero_mul, Nat.zero_add]

theorem packBigEndian_lt (bytes : List Byte) : packBigEndian bytes < 256 ^ bytes.length := by
  induction bytes with
  | nil => decide
  | cons b bytes ih =>
    have hb : b.toNat + 1 ≤ 256 := b.isLt
    calc packBigEndian (b :: bytes) < b.toNat * 256 ^ bytes.length + 256 ^ bytes.length := by rw [packBigEndian_cons]; omega
      _ = (b.toNat + 1) * 256 ^ bytes.length := by ring
      _ ≤ 256 * 256 ^ bytes.length := Nat.mul_le_mul_right _ hb
      _ = 256 ^ (b :: bytes).length := by rw [List.length_cons, Nat.pow_succ, Nat.mul_comm]

/-- Two-digit numbers in one base compare by their high digits first. -/
theorem mul_add_lt_mul_add_iff {x y p q base : Nat} (hp : p < base) (hq : q < base) :
    x * base + p < y * base + q ↔ x < y ∨ x = y ∧ p < q := by
  rcases lt_trichotomy x y with h | rfl | h
  · have : (x + 1) * base ≤ y * base := Nat.mul_le_mul_right base h
    exact iff_of_true (by rw [Nat.add_mul, Nat.one_mul] at this; omega) (.inl h)
  · simp
  · have : (y + 1) * base ≤ x * base := Nat.mul_le_mul_right base h
    exact iff_of_false (by rw [Nat.add_mul, Nat.one_mul] at this; omega) (by omega)

/-- Packed numbers of one length compare as their bytes do lexicographically. -/
theorem packBigEndian_lt_iff {xs ys : List Byte} (hlen : xs.length = ys.length) :
    packBigEndian xs < packBigEndian ys ↔ xs < ys := by
  induction xs generalizing ys with
  | nil =>
    obtain rfl := List.eq_nil_of_length_eq_zero hlen.symm
    simp
  | cons x xs ih =>
    cases ys with
    | nil => cases hlen
    | cons y ys =>
      have htail : xs.length = ys.length := Nat.succ.inj hlen
      have hy := packBigEndian_lt ys
      rw [← htail] at hy
      rw [packBigEndian_cons, packBigEndian_cons, ← htail, mul_add_lt_mul_add_iff (packBigEndian_lt xs) hy, ih htail,
        List.cons_lt_cons_iff, BitVec.lt_def, BitVec.toNat_inj]

@[simp] theorem length_buffer (s : State) (addr len : Word) : (buffer s addr len).length = len.toNat := by
  simp [buffer]

/-- Buffers of one length compare lexicographically by the first difference (R150). -/
theorem buffer_lt_iff {s : State} {a b len : Word} :
    buffer s a len < buffer s b len ↔ ∃ i < len.toNat, (∀ j < i, memRead s (a.toNat + j) = memRead s (b.toNat + j)) ∧
      memRead s (a.toNat + i) < memRead s (b.toNat + i) := by
  rw [List.lt_iff_exists]
  simp only [length_buffer, lt_self_iff_false, and_false, false_or]
  simp [buffer, and_left_comm]

/-- Settles O37: packed numbers compare as the bytes do lexicographically, and so does CMP. -/
theorem compareAgreesWithBigEndianWords : Obligations.CompareAgreesWithBigEndianWords := by
  intro s hrun
  refine ⟨_, exec_of_runs hrun, ?_, ?_⟩
  all_goals rw [packBigEndian_lt_iff (by simp), buffer_lt_iff]
  · exact compareResult_eq_less.trans (exists_firstDifference_iff (r := fun x y => x < y) BitVec.lt_irrefl)
  · refine compareResult_eq_greater.trans ((exists_firstDifference_iff (r := fun x y => y < x) BitVec.lt_irrefl).trans ?_)
    simp only [eq_comm]

/-! ## SEARCH and CMP (R165) -/

/-- With equal lengths SEARCH and CMP use the same operands, and so run in the same states (R155). -/
theorem runs_cmp_of_runs_search {s : State} (hlen : s.aLen = s.bLen) (h : runs .search s = true) : runs .cmp s = true := by
  have hops : usedOperands .cmp s = usedOperands .search s := by simp [usedOperands, hlen]
  rw [runs_iff] at h ⊢
  simpa only [rangeFailure, declaredAll, hops] using h

theorem one_le_toNat {len : Word} (h : len ≠ 0#32) : 1 ≤ len.toNat :=
  Nat.one_le_iff_ne_zero.mpr fun hzero => h (BitVec.eq_of_toNat_eq hzero)

/-- With equal lengths the needle can only lie at 0, and lies there when no byte differs. -/
theorem needleAt_iff_of_equal_lengths {s : State} (hlen : s.aLen = s.bLen) (hne : s.bLen ≠ 0#32) (i : Nat) :
    NeedleAt s i ↔ i = 0 ∧ firstDifference s s.aAddr s.bAddr s.aLen = none := by
  have hpos := one_le_toNat hne
  rw [firstDifference_eq_none, hlen]
  constructor
  · rintro ⟨-, hinside, hbytes⟩
    obtain rfl : i = 0 := by rw [hlen] at hinside; omega
    exact ⟨rfl, hbytes⟩
  · rintro ⟨rfl, hbytes⟩
    exact ⟨hpos, by rw [hlen, Nat.zero_add], hbytes⟩

/-- SEARCH reports FOUND exactly when its scan finds an offset (R161). -/
theorem searchCompletion_found {s : State} : (searchCompletion s).found = true ↔ ∃ i, searchOffset s = some i := by
  unfold searchCompletion
  cases searchOffset s <;> simp

theorem searchCompletion_r0 {s : State} {i : Nat} (h : searchOffset s = some i) : (searchCompletion s).r0 = BitVec.ofNat 32 i := by
  simp [searchCompletion, h]

/-- A needle that occurs is found. -/
theorem exists_searchOffset_iff {s : State} : (∃ i, searchOffset s = some i) ↔ ∃ i, NeedleAt s i := by
  rw [← Option.isSome_iff_exists, Option.isSome_iff_ne_none, ne_eq, searchOffset_eq_none, not_forall_not]

/-- Settles O39: found and equal both mean that no byte differs. -/
theorem equalLengthSearchAgreesWithCompare : Obligations.EqualLengthSearchAgreesWithCompare := by
  intro s hrun hlen hne
  refine ⟨_, _, exec_of_runs hrun, exec_of_runs (runs_cmp_of_runs_search hlen hrun), ?_, fun hfound => ?_⟩
  · refine searchCompletion_found.trans (Iff.trans ?_ compareResult_eq_equal.symm)
    simp [exists_searchOffset_iff, needleAt_iff_of_equal_lengths hlen hne]
  · obtain ⟨i, hoffset⟩ := searchCompletion_found.mp hfound
    obtain ⟨hmatch, -⟩ := searchOffset_eq_some.mp hoffset
    obtain ⟨rfl, -⟩ := (needleAt_iff_of_equal_lengths hlen hne i).mp hmatch
    exact searchCompletion_r0 hoffset

/-! ## Offsets (R167, R168) -/

/-- Settles O40: the needle occurs at k, byte for byte at the same addresses, and the scan finds its first occurrence. -/
theorem overlappingNeedleIsFound : Obligations.OverlappingNeedleIsFound := by
  intro s k hrun hne haddr hinside
  have hpos := one_le_toNat hne
  have hk : NeedleAt s k := ⟨hpos, hinside, fun j _ => by rw [haddr]⟩
  obtain ⟨i, hoffset⟩ := exists_searchOffset_iff.mpr ⟨k, hk⟩
  obtain ⟨hmatch, hbefore⟩ := searchOffset_eq_some.mp hoffset
  refine ⟨_, exec_of_runs hrun, searchCompletion_found.mpr ⟨i, hoffset⟩, ?_⟩
  calc (searchCompletion s).r0.toNat = i := by rw [searchCompletion_r0 hoffset, toNat_ofNat_of_needleAt hmatch]
    _ ≤ k := Nat.le_of_not_lt fun hlt => hbefore k hlt hk

/-- Settles O41: the offset found is one at which the needle lies inside the haystack. -/
theorem sentinelIsNoOffset : Obligations.SentinelIsNoOffset := by
  intro s t hrun hexec hfound
  cases (exec_of_runs (c := .search) hrun).symm.trans hexec
  obtain ⟨i, hoffset⟩ := searchCompletion_found.mp hfound
  obtain ⟨hmatch, -⟩ := searchOffset_eq_some.mp hoffset
  obtain ⟨-, hinside, -⟩ := id hmatch
  have hr0 : (searchCompletion s).r0.toNat = i := by rw [searchCompletion_r0 hoffset, toNat_ofNat_of_needleAt hmatch]
  exact ⟨hr0 ▸ hinside, completionOf_found (c := .search) hfound⟩

end Sys2Proof.Machine
end

section
/-! ENTROPY: the histogram counts the bytes, and the result is read off it (R170 to R173, R179). -/

namespace Sys2Proof.Machine

open Sys2Proof.Safety

/-! ## Counting -/

theorem getElem_countByte (h : Histogram) (b v : Byte) :
    (countByte h b)[v.toNat]'v.isLt = h[v.toNat]'v.isLt + if b = v then 1#32 else 0#32 := by
  rw [countByte, Vector.getElem_set]
  by_cases hbv : b = v
  · subst hbv
    simp
  · simp [hbv, BitVec.toNat_inj]

/-- Each byte of a list adds one to its own counter. -/
theorem getElem_foldl_countByte (bytes : List Byte) (h : Histogram) (v : Byte) :
    (bytes.foldl countByte h)[v.toNat]'v.isLt = h[v.toNat]'v.isLt + BitVec.ofNat 32 (bytes.count v) := by
  induction bytes generalizing h with
  | nil => simp
  | cons b bytes ih =>
    rw [List.foldl_cons, ih, getElem_countByte, List.count_cons, BitVec.ofNat_add, BitVec.add_assoc]
    by_cases hbv : b = v
    · simp [hbv, BitVec.add_comm]
    · simp [hbv]

/-- A counter holds the number of bytes of its value, as a 32-bit number (R172). -/
theorem getElem_histogram (bytes : List Byte) (v : Byte) :
    (histogram bytes)[v.toNat]'v.isLt = BitVec.ofNat 32 (bytes.count v) := by
  rw [histogram, getElem_foldl_countByte]
  simp [emptyHistogram]

/-- The counters in order of value. -/
theorem toList_histogram (bytes : List Byte) :
    (histogram bytes).toList = (List.range 256).map (fun v => BitVec.ofNat 32 (bytes.count (BitVec.ofNat 8 v))) := by
  refine List.ext_getElem (by simp) fun i hi _ => ?_
  have hv : (BitVec.ofNat 8 i).toNat = i := Nat.mod_eq_of_lt (by simpa using hi)
  simpa [hv] using getElem_histogram bytes (BitVec.ofNat 8 i)

/-- The counters' order of bytes does not matter (R179). -/
theorem histogram_of_perm {bytes bytes' : List Byte} (h : bytes.Perm bytes') : histogram bytes = histogram bytes' := by
  rw [← Vector.toList_inj, toList_histogram, toList_histogram]
  simp only [h.count_eq]

/-- No counter of fewer than 2^32 bytes wraps. -/
theorem toNat_ofNat_count {bytes : List Byte} (hlen : bytes.length < 2 ^ 32) (v : Byte) :
    (BitVec.ofNat 32 (bytes.count v)).toNat = bytes.count v :=
  Nat.mod_eq_of_lt (Nat.lt_of_le_of_lt List.count_le_length hlen)

/-- A byte is one of the 256 values, and counts for that one alone. -/
theorem sum_count_singleton (b : Byte) : ∑ v ∈ Finset.range 256, (if b == BitVec.ofNat 8 v then 1 else 0) = 1 := by
  have hvalue : ∀ v ∈ Finset.range 256, ((b == BitVec.ofNat 8 v) = true ↔ b.toNat = v) := fun v hv => by
    rw [beq_iff_eq, ← BitVec.toNat_inj, BitVec.toNat_ofNat, Nat.mod_eq_of_lt (Finset.mem_range.mp hv)]
  rw [Finset.sum_congr rfl fun v hv => if_congr (hvalue v hv) rfl rfl]
  simp [b.isLt]

/-- The counts of the 256 values sum to the number of bytes. -/
theorem sum_counts (bytes : List Byte) :
    ((List.range 256).map (fun v => bytes.count (BitVec.ofNat 8 v))).sum = bytes.length := by
  rw [← List.sum_toFinset _ List.nodup_range, List.toFinset_range]
  induction bytes with
  | nil => exact Finset.sum_eq_zero fun _ _ => List.count_nil
  | cons b bytes ih => simp only [List.count_cons, Finset.sum_add_distrib, ih, sum_count_singleton, List.length_cons]

theorem length_buffer_lt (s : State) (addr len : Word) : (buffer s addr len).length < 2 ^ 32 := by
  rw [length_buffer]
  exact len.isLt

/-- The counters of a buffer sum to its length (R172). -/
theorem countsTo_histogram_buffer (s : State) (addr len : Word) : countsTo (histogram (buffer s addr len)) len := by
  rw [countsTo, toList_histogram, List.map_map]
  simp only [Function.comp_def, toNat_ofNat_count (length_buffer_lt s addr len), sum_counts, length_buffer]

/-- Settles O42: the histogram the completion leaves is that of the buffer, whose counters do not wrap. -/
theorem histogramCountsTheBytes : Obligations.HistogramCountsTheBytes := by
  intro s hrun
  refine ⟨_, exec_of_runs hrun, fun v => ?_, countsTo_histogram_buffer s s.aAddr s.aLen⟩
  exact (congrArg BitVec.toNat (getElem_histogram _ v)).trans (toNat_ofNat_count (length_buffer_lt s s.aAddr s.aLen) v)

/-! ## The result words -/

/-- The two result words put together are the binary64 they were cut from (R171). -/
theorem result_words_append (e : Binary64) : e.extractLsb' 32 32 ++ e.extractLsb' 0 32 = e := by
  exact (BitVec.extractLsb'_append_extractLsb'_eq_extractLsb' (x := e) (start₂ := 32) (len₁ := 32) rfl).trans BitVec.extractLsb'_eq_self

/-- Settles O43: the completion cuts the entropy of the buffer's histogram in two words. -/
theorem entropyIsItsFunctionOfTheHistogram : Obligations.EntropyIsItsFunctionOfTheHistogram := by
  intro s hrun
  exact ⟨_, entropyOf (histogram (buffer s s.aAddr s.aLen)) s.aLen, exec_of_runs hrun, finish_completedWith _ s,
    result_words_append _, fun hempty => if_pos hempty, fun hne => if_neg hne⟩

/-- Settles O48: permuted buffers have one length and one histogram, and the result is a function of the two. -/
theorem entropyIgnoresByteOrder : Obligations.EntropyIgnoresByteOrder := by
  intro s s' hrun hrun' hperm
  have hlen : s.aLen = s'.aLen := BitVec.eq_of_toNat_eq (by simpa using hperm.length_eq)
  have hentropy : entropyOf (histogram (buffer s s.aAddr s.aLen)) s.aLen =
      entropyOf (histogram (buffer s' s'.aAddr s'.aLen)) s'.aLen := by
    rw [histogram_of_perm hperm, hlen]
  exact ⟨_, _, exec_of_runs hrun, exec_of_runs hrun', congrArg (BitVec.extractLsb' 0 32) hentropy,
    congrArg (BitVec.extractLsb' 32 32) hentropy⟩

/-! ## The real entropy (R173) -/

/-- Terms that are zero can be left out of a sum. -/
theorem sum_map_filter_of_zero {α : Type} (p : α → Bool) (f : α → ℝ) (l : List α) (h : ∀ x, p x = false → f x = 0) :
    ((l.filter p).map f).sum = (l.map f).sum := by
  induction l with
  | nil => rfl
  | cons x l ih =>
    cases hx : p x
    · simp [hx, h x hx, ih]
    · simp [hx, ih]

/-- The entropy of the histogram's counts is that of the bytes' shares: a value that does not occur has no term in either
(R173, R178). -/
theorem realEntropy_histogram {bytes : List Byte} {n : Word} (hlen : bytes.length = n.toNat) :
    realEntropy (histogram bytes) n = bufferEntropy bytes := by
  have hlt : bytes.length < 2 ^ 32 := hlen ▸ n.isLt
  rw [realEntropy, bufferEntropy, occurring, sum_map_filter_of_zero _ _ _ fun c hc => ?_, toList_histogram, List.map_map]
  · congr 2
    refine List.map_congr_left fun v _ => ?_
    simp only [Function.comp_apply, toNat_ofNat_count hlt, hlen]
    split
    · simp [*]
    · rfl
  · obtain rfl : c = 0#32 := by simpa using hc
    simp

/-- Settles O47: the result words are ENTROPY_FN of the buffer's histogram, whose real entropy is the buffer's. -/
theorem entropyResultKeepsTheAssumedBound : Obligations.EntropyResultKeepsTheAssumedBound := by
  intro bound s hwithin hrun hne
  obtain ⟨t, e, hexec, -, hwords, -, he⟩ := entropyIsItsFunctionOfTheHistogram s hrun
  refine ⟨t, hexec, ?_⟩
  rw [hwords, he hne, ← realEntropy_histogram (length_buffer s s.aAddr s.aLen)]
  exact hwithin _ _ hne (countsTo_histogram_buffer s s.aAddr s.aLen)

end Sys2Proof.Machine
end
